-- ==== Sys2Proof/Word.lean ====
section
/-!
DEFINITION. Sys2Proof/Word.lean: the plainest types of the model. A byte, an FP32 pattern, a
sparse map from numbers (the spec's register files, tables and per-tile storage), and nothing
that a rule of the spec decides. Bit fields, byte order and sign extension are in Machine/Bits.lean.
-/
namespace Sys2Proof

/-- One byte. -/
abbrev Byte := BitVec 8

/-- The bits of an FP32 value or of any 32-bit lane. -/
abbrev F32 := BitVec 32

/-- A sparse map from numbers: a list of pairs whose keys strictly rise. A key that is not listed
stands for the owner's stated default. -/
abbrev SMap (α : Type) := List (Nat × α)

/-- The value listed at `k`, or `d`. -/
def SMap.getD {α : Type} (d : α) (m : SMap α) (k : Nat) : α :=
  match m with
  | [] => d
  | (j, v) :: rest => if j = k then v else SMap.getD d rest k

/-- The value listed at `k`, if any. -/
def SMap.find {α : Type} (m : SMap α) (k : Nat) : Option α :=
  match m with
  | [] => none
  | (j, v) :: rest => if j = k then some v else SMap.find rest k

/-- `m` with `v` at `k`, the keys kept strictly rising. -/
def SMap.set {α : Type} (m : SMap α) (k : Nat) (v : α) : SMap α :=
  match m with
  | [] => [(k, v)]
  | (j, w) :: rest =>
    if k < j then (k, v) :: (j, w) :: rest
    else if j = k then (k, v) :: rest
    else (j, w) :: SMap.set rest k v

/-- `m` with nothing listed at `k`. -/
def SMap.erase {α : Type} (m : SMap α) (k : Nat) : SMap α :=
  m.filter (fun e => e.1 != k)

/-- `m` with `f` applied to what stands at `k` (the default `d` where nothing is listed). -/
def SMap.upd {α : Type} (d : α) (m : SMap α) (k : Nat) (f : α → α) : SMap α :=
  SMap.set m k (f (SMap.getD d m k))

/-- The values, in key order. -/
def SMap.vals {α : Type} (m : SMap α) : List α := m.map (fun e => e.2)

/-- The keys, in order. -/
def SMap.keys {α : Type} (m : SMap α) : List Nat := m.map (fun e => e.1)

end Sys2Proof
end

