-- ==== Sys2Proof/Syntax.lean ====
section
/-!
DEFINITION. Sys2Proof/Syntax.lean: the commands of the block, one constructor of Instr for each row of
spec/opcode_table.json, and the plain types of their operands.
-/
namespace Sys2Proof

/-- The two arrays of a tile (R114). -/
inductive Arr where
  | hawk
  | float
  deriving DecidableEq, Repr

/-- An issue record of a tile program without its cycle, unit and op class (R64): `index` is its place in the
program, as a fault record names it (R81). -/
structure IssueRec where
  index : Nat
  checkA : Bool
  checkB : Bool
  setValid : Bool
  releaseA : Bool
  releaseB : Bool
  entryA : Nat
  entryB : Nat
  setEntry : Nat
  desc : BitVec 48
  deriving DecidableEq, Repr

/-- The status of an access: which layer corrected it, or none could (R168). -/
inductive MemStatus where
  | ok | device | link | uncorrectable
  deriving DecidableEq, Repr

/-- Where a Screed issue's home lies (R71): its own die, another die (class 0x71), another module (class 0x72). -/
inductive Reach where
  | die
  | otherDie
  | otherModule
  deriving DecidableEq, Repr

/-- A flit: its header fields and its 240 bytes of payload (R342). -/
structure Flit where
  type : Nat := 0
  seq : Nat := 0
  ack : Nat := 0
  nakValid : Bool := false
  nak : Nat := 0
  last : Bool := false
  job : Nat := 0
  dest : Nat := 0
  word : Nat := 0
  payload : List Byte := []
  /-- The model's own, not on the wire: the stamp that the sender's plan gives a sync flit's arrive, its issue cycle plus its latency
  (R475). -/
  stamp : Nat := 0
  deriving DecidableEq, Repr

/-- A memory error that a controller detects outside the accesses of issue records (R168 to R170): in an access of hub firmware, in
patrol scrub, or in an access of a home or of the snapshot engine. `ctl` is the controller's number (R170), `ago` the cycles since it
was detected. -/
structure MemError where
  ctl : Nat
  status : MemStatus
  scrub : Bool := false
  ago : Nat := 0
  deriving DecidableEq, Repr

/-- A bucket that a home closes, with the memory errors that the close's accesses meet (R261, R476). -/
structure BucketWork where
  bucket : Nat
  errors : List MemError := []
  deriving DecidableEq, Repr

/-- A Screed packet as it arrives (R252), with the memory errors that its adds meet (R257, R476). -/
structure PacketWork where
  bytes : List Byte
  errors : List MemError := []
  deriving DecidableEq, Repr

/-- A part of a snapshot under Holders 1 (R375): the module at the other end, the job, the snapshot, the part and its place as
ciphertext. -/
structure SnapPart where
  module : Nat
  job : Nat
  number : Nat
  part : Nat
  bytes : List Byte
  deriving DecidableEq, Repr

/-- A job whose snapshot is complete, with the memory errors that the snapshot engine's accesses have met (R371, R476), and the parts
of partners that have landed in this module's reserves since (R375). -/
structure SnapWork where
  job : Nat
  errors : List MemError := []
  parts : List SnapPart := []
  deriving DecidableEq, Repr

/-- A command packet as it is collected from a window (R409), without its opcode and its sequence number: `win` is
0 for the operator window and p + 1 for partition p; `params` are bytes P0 to P47. An indirect block
stands in the window's parameter area (R410). -/
structure Call where
  win : Nat
  partition : Nat
  flags : Nat := 0
  tag : Nat := 0
  length : Nat := 0
  reserved : Nat := 0
  params : List Byte
  /-- The memory errors that hub firmware meets in serving the command (R169): not on the wire. -/
  mem : List MemError := []
  deriving DecidableEq, Repr

/-- The memory errors that hub firmware meets in serving a packet that stands in a window's slot (R169): the window, the packet's
sequence number, the errors. -/
structure PacketErrors where
  win : Nat
  seq : Nat
  errors : List MemError
  deriving DecidableEq, Repr

/-- What firmware reads at a management tick: the compute dies' junction temperatures in °C, the errors that controllers have
detected in patrol scrub and in accesses of the firmware's own since the tick before (R168, R170), and those that it meets in serving
the packets that it collects there. -/
structure TickReport where
  temps : List Nat := []
  errors : List MemError := []
  served : List PacketErrors := []
  deriving DecidableEq, Repr

/-- What the self-test of one array found (R130, R131, R214): the bad physical columns (bit p), the bad physical lanes (bit 32 the
spare), and whether there is a defect in its feeders, broadcast path, shim, steering or accumulator store, or a bit of a hook differs. -/
structure ArrayFound where
  array : Nat
  badColumns : Nat := 0
  badLanes : Nat := 0
  other : Bool := false
  deriving DecidableEq, Repr

/-- What the self-test of one Skim unit found (R146): the bad column units (bit 16 the spare), and whether there is a defect in its
fetch path, staging buffer, activation entries or accumulator file. -/
structure SkimFound where
  tile : Nat
  badUnits : Nat := 0
  other : Bool := false
  deriving DecidableEq, Repr

/-- One place of a snapshot: its part, the holder (a die of this module, or a buddy module), whether it is lost, and where it stands in
the holder's tier-2 window: offset and bytes. -/
structure Place where
  part : Nat
  holder : Nat
  remote : Bool
  lost : Bool := false
  off : Nat := 0
  len : Nat := 0
  deriving DecidableEq, Repr

/-- A catalogue entry (R377, R379): the partition and the module that took the snapshot, and whether the entry came with a drive from
another module (R400). -/
structure CatEntry where
  part : Nat
  job : Nat
  number : Nat
  step : Nat
  checkpoint : Bool := false
  places : List Place
  module : Nat := 0
  shipped : Bool := false
  deriving DecidableEq, Repr

/-- A checkpoint on the drive (R379): the ciphertext of one place of each part. -/
structure Checkpoint where
  part : Nat
  job : Nat
  number : Nat
  step : Nat
  body : Nat
  places : List (Nat × List Byte)
  complete : Bool := false
  module : Nat := 0
  deriving DecidableEq, Repr

/-- A frozen copy on the drive (R379): item, digest, bytes. -/
structure Frozen where
  part : Nat
  job : Nat
  body : Nat
  items : List (Nat × List Byte × List Byte)
  module : Nat := 0
  deriving DecidableEq, Repr

/-- What a drive holds on namespace 3 (R379, R400, R447). -/
structure DriveVolume where
  checkpoints : List Checkpoint := []
  frozen : List Frozen := []
  catalogue : List CatEntry := []
  deriving DecidableEq, Repr

/-- A drive as it is enumerated (R447): namespace 1, namespace 2 with the bytes that it holds, and namespace 3, none where no module
has formatted it; `kept` says that it is the drive that this module had, whose namespace 3 is as the module left it. -/
structure DriveReport where
  kept : Bool := false
  ns1 : List (Nat × Byte) := []
  ns2 : List Byte := []
  ns3 : Option DriveVolume := none
  deriving DecidableEq, Repr

/-- What the hardware finds in a start phase that ends (R432 to R441): P3 and P4, the compute dies that pass (bit n
for Cn); P2 and P4, whether the hub's packages pass; P3, the device temperatures at the start of P4, and P4, those
recorded with its results, by controller number; P5, the arrays and the Skim units in which the self-test found a defect;
P2, the drive if one is present; P0, the charge of the bulk capacitance in per cent of the feed; P2, whether the stored repair map and
PHY training results pass their digests. -/
structure PhaseReport where
  bulk : Nat := 100
  recordsOk : Bool := true
  dies : Nat := 31
  hubOk : Bool := true
  temps : List (Nat × Nat) := []
  repair : List ArrayFound := []
  skim : List SkimFound := []
  drive : Option DriveReport := none
  deriving DecidableEq, Repr

/-- A flit that is discarded on arrival (R342): the link, and whether its CRC fails or its Type is unassigned. -/
structure BadFlit where
  link : Nat
  crc : Bool := true
  deriving DecidableEq, Repr

/-- What a completed training attempt found (R350): the one-way delay, what the partner sent in the time exchange (R46): the
number of the frame whose cycle 0 lies nearest the exchange, as the partner counts, its Plumb state code and hop count; and the rung
of the ladder that the partner reached. -/
structure TrainReport where
  delay : Nat
  frame : Nat
  state : Nat
  hop : Nat
  rung : Nat
  deriving DecidableEq, Repr

/-- One landing of what a step is told on scheduled slots (R77, R279, R374): the beaconed class, the batch
description and the control word, each none where it did not land. -/
structure StepWords where
  beacon : Option Nat := none
  description : Option (List Byte) := none
  control : Option (List Byte) := none
  /-- It came by a die-to-die link (R476). -/
  byDie : Bool := false
  deriving DecidableEq, Repr

/-- What the image made of one batch row (R208, R307): the new token, if the row yields one; whether no candidate was
left; the students that trained on the row and whether it was void. -/
structure RowOut where
  token : Option Nat := none
  noCandidate : Bool := false
  students : Nat := 0
  void : Bool := false
  deriving DecidableEq, Repr

/-- An abandoned step's job, and what the image had made of each batch row by then (R208). -/
structure AbandonReport where
  job : Nat
  outs : List RowOut := []
  deriving DecidableEq, Repr

/-- The commands of the block: one constructor for each row of spec/opcode_table.json. In every one of them `dt` is
the number of cycles since the command before it (log 4). -/
inductive Instr where
  /-- FEED_APPLIED (R7). Application of the 52 V feed begins the start sequence at phase P0. -/
  | feedApplied (dt : Nat)
  /-- FEED_REMOVED (R7). Removal of the 52 V feed ends all operation; tier-1, tier-2 and hub memory contents are
  lost. -/
  | feedRemoved (dt : Nat)
  /-- FEED_VOLTAGE_CHANGE (R457). The feed voltage crosses an alarm band, setting or clearing the undervoltage or
  overvoltage alarm. -/
  | feedVoltageChange (dt millivolts : Nat)
  /-- FEED_OVERVOLTAGE_OPEN (R457). The feed stays above 60 V for 1 ms, or exceeds 65 V at any instant, and the hot-
  swap stage opens with the effect of feed removal. -/
  | feedOvervoltageOpen (dt : Nat)
  /-- FEED_UNDERVOLTAGE_TURN_OFF (R457). The feed stays below 44 V for more than 0.5 ms and the rails are turned off
  in reverse order of P0. -/
  | feedUndervoltageTurnOff (dt : Nat)
  /-- HOTSWAP_OVERCURRENT (R462). Input current exceeds 80 A for 100 us and the hot-swap stage opens the feed path.
  -/
  | hotswapOvercurrent (dt : Nat)
  /-- ENABLE_CONTACT_MATE (R458). The ENABLE contact mates; once bulk capacitance reaches 90 % of the feed, the main
  path closes. -/
  | enableContactMate (dt : Nat)
  /-- ENABLE_CONTACT_BREAK (R467). ENABLE breaks on withdrawal under power and the hot-swap stage opens the path
  before the blades part. -/
  | enableContactBreak (dt : Nat)
  /-- EJECTOR_LATCH_OPEN (R454). Opening the ejector latch while the feed is present requests an emergency quiesce.
  -/
  | ejectorLatchOpen (dt : Nat)
  /-- SERVICE_BUTTON_PRESS (R455). The service button is pressed and its hold time begins to be measured. -/
  | serviceButtonPress (dt : Nat)
  /-- SERVICE_BUTTON_RELEASE (R455). The service button is released before 1 s, which toggles the identify LED. -/
  | serviceButtonRelease (dt : Nat)
  /-- SERVICE_BUTTON_HELD_3S (R455). The button has been held 3 s: while running or in the service state this
  requests an orderly quiesce; when held from feed application it makes the start cold. -/
  | serviceButtonHeld3s (dt : Nat)
  /-- SERVICE_BUTTON_HELD_10S (R455). The button, held from feed application, is still held 10 s after P0 ends, and
  the access list is emptied. -/
  | serviceButtonHeld10s (dt : Nat)
  /-- COOLANT_SENSOR_CHANGE (R464). Inlet temperature, outlet temperature or flow crosses a limit, setting or
  clearing the inlet, outlet or flow alarm. -/
  | coolantSensorChange (dt inlet outlet flow : Nat)
  /-- COOLANT_EMERGENCY_TIMEOUT (R464). Inlet above 50 C, or flow below 3.0 L/min, persists for 10 s and an
  emergency quiesce follows. -/
  | coolantEmergencyTimeout (dt : Nat)
  /-- HUB_THERMAL_TRIP (R465). The hub-die junction reaches 110 C and the rails are turned off with the effect of
  feed removal. -/
  | hubThermalTrip (dt : Nat)
  /-- POWER_STAGE_ALARM (R465). A power stage crosses 110 C and raises its alarm, or a rail enters current limit. -/
  | powerStageAlarm (dt : Nat) (rail : Bool) (number : Nat) (active : Bool)
  /-- POWER_SAMPLE (R461). A 1 ms power sample completes; a sample above 3.4 kW, or 11 consecutive samples above 3.0
  kW, trips the governor. -/
  | powerSample (dt milliwatts : Nat)
  /-- START_PHASE_COMPLETE (R434). A start phase P0 to P8 finishes its work and the next phase begins, or the
  command windows open once the last phase ends. -/
  | startPhaseComplete (dt : Nat) (r : PhaseReport)
  /-- START_PHASE_TIMEOUT (R438). A start phase reaches its time bound, with the outcome the phase table gives: the
  start fails, a die is lost, or the start continues. -/
  | startPhaseTimeout (dt die : Nat)
  /-- HUB_WATCHDOG_TIMEOUT (R438). Firmware fails to answer the hub watchdog for 1 s and the start fails. -/
  | hubWatchdogTimeout (dt : Nat)
  /-- START_RETRY (R438). One second after a failed warm start the module begins again at P0; the start is cold if
  the failed-warm-start count has reached three. -/
  | startRetry (dt : Nat)
  /-- FRAME_WORD (R27). A 64-bit frame word received on the timing connector is checked, measured for phase error
  and used for source selection, lock and loss detection. -/
  | frameWord (dt : Nat) (word : BitVec 64) (err : Int)
  /-- TIMING_FLIT (R29). A timing flit received on a Lath link gives the partner's frame, hop count, Plumb state and
  deadline. -/
  | timingFlit (dt link : Nat) (f : Flit) (err : Int)
  /-- REFERENCE_ABSENT_TIMEOUT (R36). The reference has been absent for more than 1 us and the source is taken as
  lost. -/
  | referenceAbsentTimeout (dt : Nat)
  /-- PLUMB_LOCK (R35). After 16 good consecutive frames the module enters LOCKED from ACQUIRING and adopts the
  source frame number; from FENCED the data plane is unfenced. -/
  | plumbLock (dt : Nat)
  /-- HOLDOVER_ENTRY (R36). The source is lost and at the next frame boundary the module enters HOLDOVER, with
  deadline f + 64. -/
  | holdoverEntry (dt : Nat)
  /-- HOLDOVER_RELOCK (R38). Before its deadline a module in HOLDOVER finds an agreeing source, slews within 2 cy
  and returns to LOCKED. -/
  | holdoverRelock (dt : Nat)
  /-- HOLDOVER_DEADLINE (R37). The holdover deadline frame begins while the module is still in HOLDOVER, and it
  enters FENCED. -/
  | holdoverDeadline (dt : Nat)
  /-- MANAGEMENT_TICK (R413). At each management-tick boundary the module collects packets, refills budgets, takes
  the planner snapshot, posts replies and updates registers. -/
  | managementTick (dt : Nat) (r : TickReport)
  /-- GOVERNOR_REST_END (R461). After 64 consecutive ticks below 2.80 kW, the context that began resting last stops
  resting. -/
  | governorRestEnd (dt : Nat)
  /-- GOVERNOR_PAUSE (R461). After 2,384 consecutive ticks above 3.0 kW with every eligible context resting, one
  multi-module job is paused. -/
  | governorPause (dt : Nat)
  /-- REST_FRAMES_END (R460). A rested context's rest frames end and its next step begins. -/
  | restFramesEnd (dt job : Nat)
  /-- SPLIT_CHANGE (R289). Another split has been the nearest split at 4 consecutive tick boundaries and becomes the
  current split. -/
  | splitChange (dt job split : Nat)
  /-- PRESSURE_PAUSE (R300). After Pressure ticks consecutive pressed ticks, low-priority running sequences are
  parked and added to the pressure list. -/
  | pressurePause (dt job : Nat)
  /-- PRESSURE_RESUME (R301). After Calm ticks consecutive calm ticks, entries of the pressure list are resumed. -/
  | pressureResume (dt job : Nat)
  /-- PARK_LIFETIME_END (R281). A PARKED sequence's lifetime ends and it is summarised from its park places. -/
  | parkLifetimeEnd (dt entry : Nat)
  /-- SUMMARY_LIFETIME_END (R282). A SUMMARY entry's lifetime ends and the entry enters EXPIRED. -/
  | summaryLifetimeEnd (dt entry : Nat)
  /-- SUMMARY_COMPLETE (R282). Firmware finishes pooling a summary state; the sequence enters SUMMARY, or EXPIRED if
  no summary place was free. -/
  | summaryComplete (dt entry : Nat)
  /-- CHECKPOINT_INTERVAL_END (R379). A checkpoint interval ends and the lead requests a snapshot with the
  checkpoint flag set. -/
  | checkpointIntervalEnd (dt job : Nat)
  /-- CHECKPOINT_COMPLETE (R379). The copy of a snapshot's parts, and of any frozen copy, to the drive completes and
  its catalogue entry is written. -/
  | checkpointComplete (dt job : Nat)
  /-- MEMORY_ZEROED (R174). Clearing of released tier-1 memory completes, so the memory may be placed in another
  partition's window. -/
  | memoryZeroed (dt die : Nat)
  /-- DRIVE_FAILURE (R447). The drive reports a fatal error or stops responding, and is treated as absent until the
  next start. -/
  | driveFailure (dt : Nat)
  /-- TLS_HANDSHAKE (R444). A management client connects and is authenticated against the access list; while the
  list is empty, the first client becomes entry 0. -/
  | tlsHandshake (dt port : Nat) (key : List Byte)
  /-- MANAGEMENT_READ (R446). A management read request is checked against the connection's window mask and answered
  with data from region 0x1. -/
  | managementRead (dt conn : Nat) (head : List Byte)
  /-- MANAGEMENT_WRITE (R446). A management write request is checked against the connection's window mask and
  applied to region 0x1. -/
  | managementWrite (dt conn : Nat) (head data : List Byte)
  /-- PART_CREATE (R318). A FREE partition is moved to OPEN with its slice, windows, grants, mode, Privileged bit
  and slice length. -/
  | partCreate (dt : Nat) (c : Call)
  /-- PART_DESTROY (R335). A partition moves to CLOSING, its contexts are stopped and its keys, windows and grants
  are erased, and it returns to FREE. -/
  | partDestroy (dt : Nat) (c : Call)
  /-- PART_SEAL (R318). An OPEN partition moves to SEALED, fixing its resources. -/
  | partSeal (dt : Nat) (c : Call)
  /-- PART_SET_SLICE (R318). An OPEN partition's slice, windows, grants, mode or slice length are changed, with
  withdrawal of any removed resources. -/
  | partSetSlice (dt : Nat) (c : Call)
  /-- IMAGE_LOAD (R61). An image is verified and checked in order, and either loaded under a handle or refused. -/
  | imageLoad (dt : Nat) (c : Call)
  /-- IMAGE_UNLOAD (R419). An image handle is unloaded, unless a job of the image exists. -/
  | imageUnload (dt : Nat) (c : Call)
  /-- JOB_START (R421). A job is started after its identifier, context, quota, result place, link and notice checks,
  and runs from its first frame. -/
  | jobStart (dt : Nat) (c : Call)
  /-- JOB_PAUSE (R419). A job is paused at its next step boundary. -/
  | jobPause (dt : Nat) (c : Call)
  /-- JOB_RESUME (R392). A PAUSED job resumes toward a target update count, committing late where its shadow is
  sealed. -/
  | jobResume (dt : Nat) (c : Call)
  /-- JOB_STOP (R334). A job is withdrawn at a step boundary and then fenced, with its ownership entries,
  identifier, entries and tiles released. -/
  | jobStop (dt : Nat) (c : Call)
  /-- STEP_REPLAY (R397). A replay job runs a range of steps again from the original step records. -/
  | stepReplay (dt : Nat) (c : Call)
  /-- SNAP_TAKE (R373). A snapshot of a job is requested, and carried to the lead module. -/
  | snapTake (dt : Nat) (c : Call)
  /-- SNAP_RESTORE (R388). A snapshot or checkpoint is restored into a job and verified. -/
  | snapRestore (dt : Nat) (c : Call)
  /-- SNAP_VERIFY (R390). A snapshot's places are checked for seal, directory and item digests without restoring. -/
  | snapVerify (dt : Nat) (c : Call)
  /-- REQ_ADMIT (R273). A request is admitted into a FREE Request Table entry and a job slot, and enters WAITING. -/
  | reqAdmit (dt : Nat) (c : Call)
  /-- REQ_CANCEL (R304). A request is marked cancelled and either runs to its end with Discard rows or finishes
  without running again. -/
  | reqCancel (dt : Nat) (c : Call)
  /-- REQ_PAUSE (R281). A running request enters PARKING and is moved to park places or summarised. -/
  | reqPause (dt : Nat) (c : Call)
  /-- REQ_RESUME (R283). A PARKED request enters UNPARKING, or a SUMMARY request restarts from its summary state,
  optionally with appended tokens. -/
  | reqResume (dt : Nat) (c : Call)
  /-- RESULT_READ (R291). The location of a step's posted batch record is returned, or NOT_READY or STALE. -/
  | resultRead (dt : Nat) (c : Call)
  /-- RESULT_RELEASE (R291). A posted step batch record is released and its place freed. -/
  | resultRelease (dt : Nat) (c : Call)
  /-- EXPERT_LOAD (R286). A new version of an expert set is written into free slots and becomes the version that new
  admissions pin. -/
  | expertLoad (dt : Nat) (c : Call)
  /-- EXPERT_RETIRE (R287). An expert-set version is marked retiring. -/
  | expertRetire (dt : Nat) (c : Call)
  /-- BUDGET_SET (R293). The masked fields of a tenant's budget counter are written; enabling binds the tenant's
  partition and salt, and disabling clears them. -/
  | budgetSet (dt : Nat) (c : Call)
  /-- FABRIC_DISCOVER (R354). Link records are returned, and the module number or timing configuration is optionally
  written. -/
  | fabricDiscover (dt : Nat) (c : Call)
  /-- ROUTE_INSTALL (R358). Routing-table entries are written, all taking effect at one boundary. -/
  | routeInstall (dt : Nat) (c : Call)
  /-- LINK_RETRAIN (R367). The named links are retrained. -/
  | linkRetrain (dt : Nat) (c : Call)
  /-- LINK_RETRAIN_DISABLE (R367). The named links enter DISABLED. -/
  | linkRetrainDisable (dt : Nat) (c : Call)
  /-- LINK_RETRAIN_ENABLE (R367). The named links enter DOWN. -/
  | linkRetrainEnable (dt : Nat) (c : Call)
  /-- LINK_RETRAIN_LIMIT (R367). A width limit is set on the named links and they are retrained. -/
  | linkRetrainLimit (dt : Nat) (c : Call)
  /-- HEALTH_READ (R426). The items of a selector are written to the output area. -/
  | healthRead (dt : Nat) (c : Call)
  /-- RISK_SET_THRESHOLD (R382). The risk threshold and hold-off are set. -/
  | riskSetThreshold (dt : Nat) (c : Call)
  /-- ATTEST_QUOTE (R449). A signed quote reporting partitions, images and jobs is written. -/
  | attestQuote (dt : Nat) (c : Call)
  /-- INSTALL_IMAGE_KEY (R450). An image-signing public key is installed at an index. -/
  | installImageKey (dt : Nat) (c : Call)
  /-- REMOVE_IMAGE_KEY (R450). An image-signing key index is emptied. -/
  | removeImageKey (dt : Nat) (c : Call)
  /-- SET_ACCESS_ENTRY (R450). An access-list entry is set or emptied. -/
  | setAccessEntry (dt : Nat) (c : Call)
  /-- EXPORT_KEY_PAIR (R451). The partition's key pair is wrapped for a recipient module given by its quote. -/
  | exportKeyPair (dt : Nat) (c : Call)
  /-- IMPORT_KEY_PAIR (R452). A wrapped key record is verified and replaces the partition's key pair. -/
  | importKeyPair (dt : Nat) (c : Call)
  /-- ORDERLY_QUIESCE (R453). Jobs are withdrawn at step boundaries, stores are flushed and the module becomes
  quiesced. -/
  | orderlyQuiesce (dt : Nat) (c : Call)
  /-- EMERGENCY_QUIESCE (R454). At the next frame the data plane is fenced without commit, and the module then
  quiesces. -/
  | emergencyQuiesce (dt : Nat) (c : Call)
  /-- QUIESCE_COMPLETE (R453). The work of a quiesce finishes and the module is quiesced, with a steady blue LED and
  REMOVE_OK low. -/
  | quiesceComplete (dt : Nat)
  /-- STEP_START (R63). At the first cycle of a step, tile state, scoreboards and sync objects are cleared, the
  attempt count rises and the update unit is written. -/
  | stepStart (dt job : Nat) (landed : List StepWords)
  /-- STEP_END (R394). At a step's last cycle, summaries are captured, outcomes enter the Request Table, tenants are
  charged and the step record is written. -/
  | stepEnd (dt job : Nat) (out : List RowOut)
  /-- ARRAY_WEIGHT_LOAD (R120). Class 0x01 loads an S8 weight group into a weight set. -/
  | arrayWeightLoad (dt tile : Nat) (a : Arr) (r : IssueRec)
  /-- ARRAY_WEIGHT_LOAD_EXPAND (R120). Class 0x02 loads an INT4 weight group with codebook or zero-point expansion.
  -/
  | arrayWeightLoadExpand (dt tile : Nat) (a : Arr) (r : IssueRec)
  /-- ACTIVATION_PLAIN (R121). Class 0x03 broadcasts an activation line and accumulates into the 40-bit slots. -/
  | activationPlain (dt tile : Nat) (a : Arr) (r : IssueRec)
  /-- ACTIVATION_BLOCK_SCALED (R121). Class 0x04 accumulates a block-scaled term into the 64-bit slots. -/
  | activationBlockScaled (dt tile : Nat) (a : Arr) (r : IssueRec)
  /-- DRAIN_REQUANTISE (R98). Class 0x05 drains an accumulator row with bias, shift and saturation to S8 or S16. -/
  | drainRequantise (dt tile : Nat) (a : Arr) (r : IssueRec)
  /-- DRAIN_FP32_HOOK (R151). Class 0x06 drains a row to FP32 through a drain hook. -/
  | drainFp32Hook (dt tile : Nat) (a : Arr) (r : IssueRec)
  /-- SKIM_ROW (R143). Class 0x10 fetches or reuses a weight segment and accumulates 8 sequence lanes into a Skim
  slot, draining it if asked. -/
  | skimRow (dt tile : Nat) (r : IssueRec)
  /-- FADD (R147). Vector FP32 add. -/
  | fadd (dt tile : Nat) (r : IssueRec)
  /-- FSUB (R147). Vector FP32 subtract. -/
  | fsub (dt tile : Nat) (r : IssueRec)
  /-- FMUL (R147). Vector FP32 multiply. -/
  | fmul (dt tile : Nat) (r : IssueRec)
  /-- FFMA (R147). Vector fused multiply-add with one rounding. -/
  | ffma (dt tile : Nat) (r : IssueRec)
  /-- FMAX (R147). Vector maximumNumber. -/
  | fmax (dt tile : Nat) (r : IssueRec)
  /-- FMIN (R147). Vector minimumNumber. -/
  | fmin (dt tile : Nat) (r : IssueRec)
  /-- FCMP (R147). Vector FP32 compare into a predicate register. -/
  | fcmp (dt tile : Nat) (r : IssueRec)
  /-- FSEL (R147). Vector select under a predicate, copying bits unchanged. -/
  | fsel (dt tile : Nat) (r : IssueRec)
  /-- CVTFS (R147). Vector conversion of FP32 to S32. -/
  | cvtfs (dt tile : Nat) (r : IssueRec)
  /-- CVTSF (R147). Vector conversion of S32 to FP32. -/
  | cvtsf (dt tile : Nat) (r : IssueRec)
  /-- FNEG (R147). Vector sign inversion. -/
  | fneg (dt tile : Nat) (r : IssueRec)
  /-- FABS (R147). Vector sign clear. -/
  | fabs (dt tile : Nat) (r : IssueRec)
  /-- IADD (R147). Vector integer add modulo 2^32. -/
  | iadd (dt tile : Nat) (r : IssueRec)
  /-- ISUB (R147). Vector integer subtract modulo 2^32. -/
  | isub (dt tile : Nat) (r : IssueRec)
  /-- IMULLO (R147). Vector low 32 bits of an integer product. -/
  | imullo (dt tile : Nat) (r : IssueRec)
  /-- IMULHU (R147). Vector high 32 bits of an unsigned product. -/
  | imulhu (dt tile : Nat) (r : IssueRec)
  /-- IAND (R147). Vector bitwise AND. -/
  | iand (dt tile : Nat) (r : IssueRec)
  /-- IOR (R147). Vector bitwise OR. -/
  | ior (dt tile : Nat) (r : IssueRec)
  /-- IXOR (R147). Vector bitwise XOR. -/
  | ixor (dt tile : Nat) (r : IssueRec)
  /-- ISHL (R147). Vector shift left. -/
  | ishl (dt tile : Nat) (r : IssueRec)
  /-- ISHRL (R147). Vector logical shift right. -/
  | ishrl (dt tile : Nat) (r : IssueRec)
  /-- ISHRA (R147). Vector arithmetic shift right. -/
  | ishra (dt tile : Nat) (r : IssueRec)
  /-- IROTL (R147). Vector rotate left. -/
  | irotl (dt tile : Nat) (r : IssueRec)
  /-- IMAX (R147). Vector signed maximum. -/
  | imax (dt tile : Nat) (r : IssueRec)
  /-- IMIN (R147). Vector signed minimum. -/
  | imin (dt tile : Nat) (r : IssueRec)
  /-- ICMP (R147). Vector signed compare into a predicate register. -/
  | icmp (dt tile : Nat) (r : IssueRec)
  /-- ISEL (R147). Vector integer select under a predicate. -/
  | isel (dt tile : Nat) (r : IssueRec)
  /-- BCAST (R147). Vector broadcast of one lane to every lane. -/
  | bcast (dt tile : Nat) (r : IssueRec)
  /-- FDIV (R147). Vector correctly rounded divide. -/
  | fdiv (dt tile : Nat) (r : IssueRec)
  /-- FSQRT (R147). Vector correctly rounded square root. -/
  | fsqrt (dt tile : Nat) (r : IssueRec)
  /-- FRSQRT (R147). Vector reciprocal square root within 1 ulp. -/
  | frsqrt (dt tile : Nat) (r : IssueRec)
  /-- FEXP (R147). Vector e to the power A. -/
  | fexp (dt tile : Nat) (r : IssueRec)
  /-- FLOG (R147). Vector natural logarithm. -/
  | flog (dt tile : Nat) (r : IssueRec)
  /-- FTANH (R147). Vector hyperbolic tangent. -/
  | ftanh (dt tile : Nat) (r : IssueRec)
  /-- FSIG (R147). Vector sigmoid. -/
  | fsig (dt tile : Nat) (r : IssueRec)
  /-- FERF (R147). Vector error function. -/
  | ferf (dt tile : Nat) (r : IssueRec)
  /-- FEXP2 (R147). Vector 2 to the power A. -/
  | fexp2 (dt tile : Nat) (r : IssueRec)
  /-- FLOG2 (R147). Vector base-2 logarithm. -/
  | flog2 (dt tile : Nat) (r : IssueRec)
  /-- RFSUM (R108). Vector FP32 sum over 128 lanes by the fixed pairwise tree. -/
  | rfsum (dt tile : Nat) (r : IssueRec)
  /-- RFMAX (R108). Vector maximum over 128 lanes. -/
  | rfmax (dt tile : Nat) (r : IssueRec)
  /-- RFMIN (R108). Vector minimum over 128 lanes. -/
  | rfmin (dt tile : Nat) (r : IssueRec)
  /-- RISUM (R147). Vector integer sum over 128 lanes modulo 2^32. -/
  | risum (dt tile : Nat) (r : IssueRec)
  /-- RARGMAX (R148). Vector index of the largest enabled lane, lowest lane on ties. -/
  | rargmax (dt tile : Nat) (r : IssueRec)
  /-- FINIT (R187). Clears a row-state part and sets its configuration and cursors. -/
  | finit (dt tile : Nat) (r : IssueRec)
  /-- FSTAT (R190). Updates the anchor and fixed-point sums of a row part over one segment. -/
  | fstat (dt tile : Nat) (r : IssueRec)
  /-- FHIST (R192). Bins the active teacher entries of a segment into the row histogram. -/
  | fhist (dt tile : Nat) (r : IssueRec)
  /-- FSELECT (R201). Fixes the cut depth and writes the selected teacher probabilities of a segment. -/
  | fselect (dt tile : Nat) (r : IssueRec)
  /-- FGRAD (R194). Computes a segment's soft-target gradient and adds to the loss part. -/
  | fgrad (dt tile : Nat) (r : IssueRec)
  /-- FSAVE (R193). Writes a row part's state to vector lanes. -/
  | fsave (dt tile : Nat) (r : IssueRec)
  /-- FMERGE (R193). Merges saved lanes into a row part. -/
  | fmerge (dt tile : Nat) (r : IssueRec)
  /-- FCLOSE (R196). Writes a row's KL and CE losses and flags, or the top-k record header. -/
  | fclose (dt tile : Nat) (r : IssueRec)
  /-- VECTOR_REGISTER_LOAD (R156). Class 0x30 loads scratchpad units into a vector register. -/
  | vectorRegisterLoad (dt tile : Nat) (r : IssueRec)
  /-- VECTOR_REGISTER_STORE (R156). Class 0x30 stores a vector register to scratchpad. -/
  | vectorRegisterStore (dt tile : Nat) (r : IssueRec)
  /-- PREDICATE_LOAD (R156). Class 0x30 loads a predicate register from scratchpad. -/
  | predicateLoad (dt tile : Nat) (r : IssueRec)
  /-- PREDICATE_STORE (R156). Class 0x30 stores a predicate register to scratchpad. -/
  | predicateStore (dt tile : Nat) (r : IssueRec)
  /-- COLUMN_MASK_LOAD (R137). Class 0x30 loads the Hawk or Float column mask. -/
  | columnMaskLoad (dt tile : Nat) (r : IssueRec)
  /-- SKIM_ACTIVATION_ENTRY_LOAD (R140). Class 0x30 fills a Skim activation entry from a segment. -/
  | skimActivationEntryLoad (dt tile : Nat) (r : IssueRec)
  /-- SKIM_CONTROL_WORD_LOAD (R141). Class 0x30 loads the Skim control word. -/
  | skimControlWordLoad (dt tile : Nat) (r : IssueRec)
  /-- MEMORY_BASE_LOAD (R159). Class 0x30 loads a memory base register. -/
  | memoryBaseLoad (dt tile : Nat) (r : IssueRec)
  /-- ZERO_FILL (R156). Class 0x30 writes zero to scratchpad units. -/
  | zeroFill (dt tile : Nat) (r : IssueRec)
  /-- TURN_READ (R157). Class 0x31 writes the transpose of a square segment. -/
  | turnRead (dt tile : Nat) (r : IssueRec)
  /-- HBM_READ_BESIDE (R160). Class 0x40 reads tier 1 from the controller beside the tile, converting if asked. -/
  | hbmReadBeside (dt tile : Nat) (r : IssueRec)
  /-- HBM_READ_OTHER (R160). Class 0x41 reads tier 1 from another controller of the die. -/
  | hbmReadOther (dt tile : Nat) (r : IssueRec)
  /-- HBM_WRITE (R160). Class 0x42 writes tier 1, converting if asked. -/
  | hbmWrite (dt tile : Nat) (r : IssueRec)
  /-- LPDDR_ACCESS_BESIDE (R164). Class 0x43 reads or writes tier 2 on the controller beside the tile. -/
  | lpddrAccessBeside (dt tile : Nat) (r : IssueRec)
  /-- LPDDR_ACCESS_OTHER (R164). Class 0x44 reads or writes tier 2 on another controller of the die. -/
  | lpddrAccessOther (dt tile : Nat) (r : IssueRec)
  /-- PUT (R219). Class 0x45 write converts a segment to a stash form and keeps it in the stash or writes it to its
  place. -/
  | put (dt tile : Nat) (r : IssueRec)
  /-- TAKE (R221). Class 0x45 read takes a kept put from the stash or reads its place. -/
  | take (dt tile : Nat) (r : IssueRec)
  /-- DIE_TO_DIE_SEND (R364). Class 0x50 send of units across one die-to-die hop. -/
  | dieToDieSend (dt tile : Nat) (r : IssueRec)
  /-- DIE_TO_DIE_SEND_VIA (R364). Class 0x51 send through an intermediate die. -/
  | dieToDieSendVia (dt tile : Nat) (r : IssueRec)
  /-- DIE_TO_DIE_RECEIVE (R363). Class 0x50 or 0x51 receive issued by the receiving image, landing at its latency.
  -/
  | dieToDieReceive (dt tile : Nat) (via : Bool) (r : IssueRec)
  /-- LATH_SEND (R362). Class 0x60 plain send places flits at successive send points of a link. -/
  | lathSend (dt tile : Nat) (r : IssueRec)
  /-- COMPACTING_SEND (R362). A send in compacting mode forms k index and probability entries from non-zero values.
  -/
  | compactingSend (dt tile : Nat) (r : IssueRec)
  /-- LATH_RECEIVE (R363). Class 0x60 plain receive landing at the declared delivery bound. -/
  | lathReceive (dt tile : Nat) (r : IssueRec)
  /-- SCATTER_RECEIVE (R363). A receive in scatter mode writes each entry's probability at its shard index. -/
  | scatterReceive (dt tile : Nat) (r : IssueRec)
  /-- SCREED_PART (R251). A Screed part issue sends a contribution packet, or updates the residual store in hold
  mode. -/
  | screedPart (dt tile : Nat) (reach : Reach) (r : IssueRec)
  /-- SCREED_CENSUS (R256). A census part forms residual sums and counts them by bit length. -/
  | screedCensus (dt tile : Nat) (reach : Reach) (r : IssueRec)
  /-- SCREED_SELECT (R256). A select part fixes the cut and appends selected elements to the list. -/
  | screedSelect (dt tile : Nat) (reach : Reach) (r : IssueRec)
  /-- SYNC_ARRIVE_SAME_DIE (R475). Class 0x80 arrive on a sync object of the tile's own die. -/
  | syncArriveSameDie (dt tile : Nat) (r : IssueRec)
  /-- SYNC_ARRIVE_OTHER_DIE (R475). Class 0x81 arrive on another die of the module. -/
  | syncArriveOtherDie (dt tile : Nat) (r : IssueRec)
  /-- SYNC_ARRIVE_OTHER_MODULE (R475). Class 0x82 arrive sent as a sync flit to another module. -/
  | syncArriveOtherModule (dt tile : Nat) (r : IssueRec)
  /-- REPEAT (R65). A repeat record runs the spanned records once per iteration at its stride. -/
  | repeatRec (dt tile index : Nat) (records : List (BitVec 128))
  /-- OPERATION_COMPLETE (R69). An operation completes at its listed latency, moving its set entry from PENDING to
  READY and delivering its results. -/
  | operationComplete (dt id : Nat) (status : MemStatus)
  /-- TRANSFER_DELIVERY (R347). At a receive's delivery cycle the transfer completes, or TRANSFER_ABSENT or
  TRANSFER_ERROR is raised. -/
  | transferDelivery (dt id : Nat) (status : MemStatus)
  /-- SYNC_BEAT (R74). At its beat a barrier fires or a counter is compared, with BARRIER_LATE or COUNT_MISMATCH on
  failure. -/
  | syncBeat (dt job object : Nat)
  /-- COMMIT_BEAT (R236). At the commit object's beat in an update step, the update commits, is skipped by the NaN
  policy, or the step is left to be abandoned. -/
  | commitBeat (dt job : Nat)
  /-- FAULT_NOTICE (R82). A fault notice landing at a module adds its record to the step's fault list and fixes the
  abandon boundary. -/
  | faultNotice (dt : Nat) (record : List Byte)
  /-- STEP_ABANDON (R83). At the abandon boundary, issue stops, scoreboards, sync objects and shadows are discarded,
  and the job proceeds by kind. -/
  | stepAbandon (dt : Nat) (job : AbandonReport)
  /-- FAULT_LIST_CLOSE (R83). N cycles after the abandon boundary, the step's fault list closes and the primary
  fault is fixed. -/
  | faultListClose (dt job : Nat)
  /-- SCREED_PACKET_ARRIVAL (R257). A Screed packet arriving at a home controller is checked for ownership and
  added, queued or dropped. -/
  | screedPacketArrival (dt die : Nat) (packet : PacketWork)
  /-- BUCKET_CLOSE (R261). At the close beat, the home adds carried packets, converts each sum to g, clears the
  accumulators and computes the peak. -/
  | bucketClose (dt job : Nat) (bucket : BucketWork)
  /-- CLOSE_WORD_SEND (R263). At Settle, the home sends the bucket's close word to every module of the job. -/
  | closeWordSend (dt job bucket : Nat)
  /-- CLOSE_WORD_ARRIVAL (R263). A close word lands, is written at its tile and counts one arrival on the commit
  object. -/
  | closeWordArrival (dt job bucket : Nat) (word : List Byte)
  /-- SEND_POINT (R345). At each send point, a link sends a scheduled, resent, best-effort, notice, hello or idle
  flit. -/
  | sendPoint (dt link : Nat)
  /-- TIMING_FLIT_SEND (R344). At the timing point of each frame's last period, a timing flit is sent with its
  marking symbol ending at cycle 0. -/
  | timingFlitSend (dt link : Nat)
  /-- SCHEDULED_FLIT (R347). A received scheduled flit lands at its position in the use of its receive entry, or is
  discarded. -/
  | scheduledFlit (dt link : Nat) (f : Flit)
  /-- BEST_EFFORT_FLIT (R359). A received best-effort flit is delivered to hub firmware or forwarded by the routing
  table. -/
  | bestEffortFlit (dt link : Nat) (f : Flit)
  /-- NOTICE_FLIT (R348). A received notice flit delivers fault records. -/
  | noticeFlit (dt link : Nat) (f : Flit)
  /-- HELLO_FLIT (R353). A received hello is recorded, and when the exchange is complete the link enters ACTIVE or
  DUPLICATE. -/
  | helloFlit (dt link : Nat) (f : Flit)
  /-- LOSS_FLIT (R347). A received loss flit marks a scheduled flit of a use as lost beyond replay. -/
  | lossFlit (dt link : Nat) (f : Flit)
  /-- SYNC_FLIT (R342). A received sync flit counts its arrive on the target sync object, or is discarded as
  misaddressed. -/
  | syncFlit (dt link : Nat) (f : Flit)
  /-- IDLE_FLIT (R345). A received idle flit carries the partner's Ack and any Nak. -/
  | idleFlit (dt link : Nat) (f : Flit)
  /-- RESEND_TIMEOUT (R346). A flit without an Ack for 2D + 256 cy is resent, and after its third failed resend is
  lost beyond replay. -/
  | resendTimeout (dt link seq : Nat)
  /-- LINK_SIGNAL_DETECT (R350). Signal has been present on two lanes for 100 ms and link training begins. -/
  | linkSignalDetect (dt link lanes : Nat)
  /-- TRAINING_COMPLETE (R350). A training attempt completes its stages and the link enters HELLO. -/
  | trainingComplete (dt link : Nat) (t : TrainReport)
  /-- TRAINING_ATTEMPT_FAIL (R350). A training attempt does not complete within 500 ms. -/
  | trainingAttemptFail (dt link lanes : Nat)
  /-- TRAINING_RUNG_RETRY (R350). One second after a failed attempt, the next rung of the ladder is tried. -/
  | trainingRungRetry (dt link : Nat)
  /-- TRAINING_LADDER_RESTART (R350). Ten seconds after the last rung fails, the ladder begins again if signal is
  present. -/
  | trainingLadderRestart (dt link : Nat)
  /-- LINK_SIGNAL_LOSS (R365). Signal is lost on every trained lane and the link enters DOWN at the next frame
  boundary. -/
  | linkSignalLoss (dt link : Nat)
  /-- PLUG_PRESENT (R469). A plug is seated in a cage and is powered unless its CMIS power class exceeds 6 W. -/
  | plugPresent (dt cage tenthWatts : Nat)
  /-- DIE_LOSS (R384). A compute die is declared lost; the module enters four-die operation, touching contexts are
  abandoned and their jobs re-mapped or halted. -/
  | dieLoss (dt die cause : Nat)
  /-- REMAP_COMPLETE (R386). The alternate body is filled and verified, and the job enters PAUSED at the snapshot's
  capture step. -/
  | remapComplete (dt job : Nat) (remote : List (Nat × List Byte))
  /-- SNAPSHOT_COMPLETE (R377). Every part is sealed on both holders and the snapshot enters the catalogue. -/
  | snapshotComplete (dt : Nat) (job : SnapWork)
  /-- CONTEXT_SWITCH_PHASE (R332). A context-switch phase (save, write-back, scrub, fill or restore) ends on a die
  and the next phase, or the incoming first step, begins. -/
  | contextSwitchPhase (dt job die : Nat)
  /-- CONTEXT_SWITCH_START (R332). The outgoing contexts reach their step boundaries and the switch phases begin. -/
  | contextSwitchStart (dt job : Nat)
  /-- FAILING_FLIT (R342). A flit arrives with a failing CRC or an unassigned Type; it is discarded, the link's
  error count rises, it counts as lost for replay, and more than 64 in a frame mark the link degraded. -/
  | failingFlit (dt : Nat) (f : BadFlit)
  /-- PARTNER_RETRAIN (R366). The partner begins retraining a link that still has signal, and this side leaves its
  state and retrains with it. -/
  | partnerRetrain (dt link : Nat)
  /-- MEMORY_TEMPERATURE_CHANGE (R167). A memory device's temperature crosses 85 C, so its controller switches
  between the base refresh rate and twice that rate. -/
  | memoryTemperatureChange (dt ctl : Nat) (hot : Bool)
  /-- RESTORE_VERIFIED (R390). The checks of a restore or of SNAP_VERIFY finish over every place read, and the job
  may resume, or it is HALTED with DEVICE_FAULT. -/
  | restoreVerified (dt job : Nat) (remote : List (Nat × List Byte))
  /-- EXPERT_WEIGHTS_IN_PLACE (R286). The weights of a new expert-set version finish being written into their slots,
  so EXPERT_LOAD completes at the next tick and later admissions pin the new version. -/
  | expertWeightsInPlace (dt job set version : Nat)
  deriving DecidableEq, Repr

end Sys2Proof
end

