-- ==== Sys2Proof/Decode.lean ====
section
/-!
DEFINITION. Sys2Proof/Decode.lean: the command that a word spells by the table's bits. No row of the table has
bits: the commands are events and packets, not words.
-/
namespace Sys2Proof

/-- No word spells a command: the table gives no row any bits. -/
def decodeTableWord (_nbits _w : Nat) : Option Instr := none

end Sys2Proof
end

