-- ==== Sys2Proof/Config.lean ====
section
/-!
DEFINITION. Sys2Proof/Config.lean: what a chip or its root of trust fixes and the free values. Each is an
OPAQUE constant with no body: nothing in Lean can evaluate it, so a theorem about the model holds
whatever it is. A fresh draw is the constant applied to the counter `State.draws`, which the step
that draws advances.
-/
namespace Sys2Proof.Config

/-- Free value (log 7): which of the FP32 numbers within 1 ulp of the exact result a class 0x22
function or FRSQRT delivers (R109). A function of the function code and the input alone, because
equal inputs give equal bits on every tile of every module. -/
opaque ulpPick : Nat → F32 → Nat

/-- Free value (log 8): the error of a fused-path term, in parts of 2^-48 of the term, clipped to
2^-28 of it where it is used (R113, R190, R194). A function of the FP32 input and the anchor. -/
opaque termPick : F32 → Int → Int

/-- Free value (log 10): a fused-path quotient by a sum that is zero (R113, R194), by its numerator and the power of two with it. -/
opaque rowQuotient : Int → Int → F32

/-- Free value (log 9): 256 random bits of the root of trust or of firmware (key pairs R175, salts R284,
ephemeral keys, nonces and signature nonces R449, R451). -/
opaque random : Nat → Nat

/-- Free value (log 10): a result the spec calls unspecified after the machine goes on (R67), or a bit it
leaves open (R168). -/
opaque freeBits : Nat → BitVec 64

/-- Free value (log 126): on a module that does not lead a serve-and-distil job, whether the row of an entry in a step is that of a
finished sequence (R205): only the lead knows where sequences finish. -/
opaque finishedRow : Nat → Nat → Bool

/-- Free value (log 127): the low 48 bits of a trace entry (R399), whose layout the spec does not give, by the kind of event and what it
shows: the states of scoreboard entries, the outcome of a beat, the result of a close. -/
opaque traceWord : Nat → List Nat → BitVec 48

/-- Free value (log 128): in a replay from records that software supplies, which count no packets, whether a packet that the original
step took on time fails to come (R398), by the step. -/
opaque absentPacket : Nat → Bool

/-- Free value (log 33): whether a multi-module job, by its image digest, has no module of a lower number but those that a module's
hellos and tables name (R271). -/
opaque noLower : Nat → Bool

/-- Free value (log 61): the cycles that a notice's path over a link takes beyond the link's delay and one send period: resends and the
links that follow (R82, R348); and the longest path that crosses no Lath link of this module, for a job of several modules. -/
opaque noticeRest : Nat → Nat → Nat
/-- Free value (log 61): see `noticeRest`. -/
opaque noticeElsewhere : Nat → Nat

/-- Free value (log 20): the bytes of the module area that step records and reports may take (R394). -/
opaque recordRoom : Nat

/-- Free value (log 130): the cycles from cycle 0 of a send period to the landing of the notices that a die-to-die link carries there
(R348). -/
opaque dieNotice : Nat

/-- Free value (log 10): the first eight bytes of the message that carries a request for a snapshot to the lead (R373), by the job
and by whether a checkpoint follows. -/
opaque requestMessage : Nat → Bool → BitVec 64

/-- Free value (log 49): the carry quota that JOB_START reserves for a job on each controller that homes one of its
buckets, taken modulo 65 (R248). -/
opaque carryQuota : Nat

/-- The serial number in the fuses (R432). -/
opaque serial : BitVec 64

/-- True for MXG-5020-B (R2). -/
opaque variantB : Bool

/-- The identity private key in the fuses (R432). -/
opaque identityKey : Nat

/-- The exchange private key in the fuses (R432). -/
opaque exchangeKey : Nat

/-- The SHA-256 of the firmware-signing public key, in the fuses (R432). -/
opaque vendorDigest : List Byte

/-- The store key seed in the fuses (R432). -/
opaque storeSeed : Nat

/-- The rollback counter in the fuses when the module is supplied (R432). -/
opaque rollback : BitVec 64

/-- The firmware image in slot A when the module is supplied (R440). -/
opaque firmware : List Byte

/-- The MAC addresses written at manufacture, one per management port (R443). -/
opaque macAddress : Nat → BitVec 48

end Sys2Proof.Config
end

