-- ==== Sys2Proof/Machine/Bits.lean ====
section
/-!
DEFINITION. Sys2Proof/Machine/Bits.lean: bit fields, byte order and sign extension (R10, R11). Bit 0
is the least significant bit; a range [hi:lo] includes both ends; multi-byte fields are
little-endian, except where a rule says big-endian.
-/
namespace Sys2Proof.Machine

/-- Bits [hi:lo] of a number (R10). -/
def bitsOf (w hi lo : Nat) : Nat := (w >>> lo) % 2 ^ (hi + 1 - lo)

/-- Bits [hi:lo] of a word (R10). -/
def fld {n : Nat} (w : BitVec n) (hi lo : Nat) : Nat := bitsOf w.toNat hi lo

/-- Bit `i` of a number. -/
def bitOf (w i : Nat) : Bool := (w >>> i) % 2 == 1

/-- A record written as its fields, most significant first, each a width and a value (R11). -/
def packMsb (fields : List (Nat × Nat)) : Nat :=
  fields.foldl (fun acc f => acc * 2 ^ f.1 + f.2 % 2 ^ f.1) 0

/-- A Bool as a one-bit field. -/
def b2n (b : Bool) : Nat := if b then 1 else 0

/-- `n` bytes of `v`, lowest first (R10). -/
def leBytes (n v : Nat) : List Byte :=
  (List.range n).map (fun i => BitVec.ofNat 8 (v >>> (8 * i)))

/-- The number that little-endian bytes spell (R10). -/
def leNat (bs : List Byte) : Nat := bs.foldr (fun b acc => b.toNat + 256 * acc) 0

/-- `n` bytes of `v`, highest first (keys, digests and signatures). -/
def beBytes (n v : Nat) : List Byte := (leBytes n v).reverse

/-- The number that big-endian bytes spell. -/
def beNat (bs : List Byte) : Nat := bs.foldl (fun acc b => acc * 256 + b.toNat) 0

/-- The signed value of the low `n` bits of `v`. -/
def sextNat (n v : Nat) : Int :=
  let u := v % 2 ^ n
  if 2 * u < 2 ^ n then (u : Int) else (u : Int) - (2 ^ n : Nat)

/-- A signed number clipped to [lo, hi]. -/
def clampInt (lo hi x : Int) : Int := if x < lo then lo else if hi < x then hi else x

/-- A number cut at a ceiling: saturating counters. -/
def satNat (bits v : Nat) : Nat := min v (2 ^ bits - 1)

/-- `len` items of a list from `off`. -/
def slice {α : Type} (l : List α) (off len : Nat) : List α := (l.drop off).take len

/-- `l` cut or filled with `d` to exactly `n` items. -/
def fitTo {α : Type} (d : α) (n : Nat) (l : List α) : List α :=
  l.take n ++ List.replicate (n - l.length) d

/-- A little-endian field of `len` bytes at `off`. -/
def leAt (bs : List Byte) (off len : Nat) : Nat := leNat (slice bs off len)

/-- `n` divided by `d`, rounded up. -/
def ceilDiv (n d : Nat) : Nat := (n + d - 1) / d

/-- `n` rounded up to a multiple of `d`. -/
def roundUp (n d : Nat) : Nat := ceilDiv n d * d

/-- The bit length of a number: 0 for 0. -/
def bitLen (n : Nat) : Nat := if n = 0 then 0 else Nat.log2 n + 1

/-- All bytes of a list are zero. -/
def allZero (bs : List Byte) : Bool := bs.all (fun b => b == 0)

/-- The 0-based positions at which a predicate holds. -/
def positions {α : Type} (p : α → Bool) (l : List α) : List Nat :=
  (l.zipIdx.filter (fun e => p e.1)).map (fun e => e.2)

/-- The bit set of the positions at which a list of Bools is true. -/
def bitsToNat (bs : List Bool) : Nat := bs.foldr (fun b acc => b2n b + 2 * acc) 0

/-- The least element under `le`, first one on ties. -/
def firstMin {α : Type} (le : α → α → Bool) : List α → Option α
  | [] => none
  | a :: rest =>
    match firstMin le rest with
    | none => some a
    | some b => if le a b then some a else some b

/-- Insertion sort, stable, by a Bool order. -/
def insertBy {α : Type} (le : α → α → Bool) (a : α) : List α → List α
  | [] => [a]
  | b :: rest => if le a b then a :: b :: rest else b :: insertBy le a rest

/-- Stable sort by a Bool order. -/
def sortBy {α : Type} (le : α → α → Bool) (l : List α) : List α :=
  l.foldr (fun a acc => insertBy le a acc) []

end Sys2Proof.Machine
end

