-- ==== Sys2Proof/Machine/Fp.lean ====
section
/-!
DEFINITION. Sys2Proof/Machine/Fp.lean: FP32 as the vector engine and the drain hooks compute it (R107 to
R110, R150). Every operation converts its operands to exact dyadic numbers, computes exactly and
rounds once, to nearest even with 24 significant bits.
-/
namespace Sys2Proof.Machine

/-- The sticky events of one operation (R150). `invalid` is an invalid result (R110). -/
structure FFlags where
  invalid : Bool := false
  divZero : Bool := false
  overflow : Bool := false
  underflow : Bool := false
  inputFlush : Bool := false
  deriving DecidableEq, Repr

/-- The events of two operations together. -/
def FFlags.or (a b : FFlags) : FFlags :=
  { invalid := a.invalid || b.invalid, divZero := a.divZero || b.divZero,
    overflow := a.overflow || b.overflow, underflow := a.underflow || b.underflow,
    inputFlush := a.inputFlush || b.inputFlush }

/-- A value read from FP32 bits: a finite number is (-1)^neg × m × 2^e. -/
inductive FVal where
  | nan
  | inf (neg : Bool)
  | fin (neg : Bool) (m : Nat) (e : Int)
  deriving DecidableEq, Repr

/-- A result with its events. -/
structure FRes where
  bits : F32
  fl : FFlags := {}
  deriving DecidableEq, Repr

/-- The one NaN the module delivers (R107). -/
def fpNan : F32 := 0x7FC00000
/-- Infinity of a sign. -/
def fpInf (neg : Bool) : F32 := if neg then 0xFF800000 else 0x7F800000
/-- Zero of a sign. -/
def fpZero (neg : Bool) : F32 := if neg then 0x80000000 else 0
/-- One. -/
def fpOne : F32 := 0x3F800000

/-- The sign bit. -/
def fpNeg (x : F32) : Bool := x.msb
/-- The exponent field. -/
def fpExp (x : F32) : Nat := fld x 30 23
/-- The fraction field. -/
def fpFrac (x : F32) : Nat := fld x 22 0
/-- The pattern is a NaN. -/
def isNan (x : F32) : Bool := fpExp x == 255 && fpFrac x != 0
/-- The pattern is an infinity. -/
def isInf (x : F32) : Bool := fpExp x == 255 && fpFrac x == 0
/-- The pattern is finite. -/
def isFinite (x : F32) : Bool := fpExp x != 255
/-- The pattern is subnormal. -/
def isSub (x : F32) : Bool := fpExp x == 0 && fpFrac x != 0
/-- The pattern is a positive normal number. -/
def isPosNormal (x : F32) : Bool := !fpNeg x && fpExp x != 0 && fpExp x != 255

/-- The value of a pattern, a subnormal read as zero of its sign (R107). -/
def fpRead (x : F32) : FVal :=
  if fpExp x = 255 then (if fpFrac x = 0 then .inf (fpNeg x) else .nan)
  else if fpExp x = 0 then .fin (fpNeg x) 0 0
  else .fin (fpNeg x) (2 ^ 23 + fpFrac x) ((fpExp x : Int) - 150)

/-- The event of reading an operand (R107). -/
def fpIn (x : F32) : FFlags := { inputFlush := isSub x }

/-- 24-bit significand `q` (2^23 ≤ q ≤ 2^24) times 2^e, delivered with the overflow and underflow
rules of R107 and R150. -/
def fpPack (neg : Bool) (q : Nat) (e : Int) : FRes :=
  let q' := if q = 2 ^ 24 then 2 ^ 23 else q
  let e' := if q = 2 ^ 24 then e + 1 else e
  let x := e' + 150
  if x < 1 then { bits := fpZero neg, fl := { underflow := true } }
  else if 254 < x then { bits := fpInf neg, fl := { overflow := true } }
  else { bits := BitVec.ofNat 32 (b2n neg * 2 ^ 31 + x.toNat * 2 ^ 23 + (q' - 2 ^ 23)) }

/-- The position of a positive rational n/d times 2^e: the floor of its 24-bit significand, its
exponent, twice the remainder against the divisor, and whether it is exact. -/
structure FPos where
  q : Nat
  e : Int
  rem2 : Nat
  den : Nat
  deriving DecidableEq, Repr

/-- Scales n/d by 2^-s, floor and remainder. -/
def scaleDiv (n d : Nat) (s : Int) : Nat × Nat × Nat :=
  let n' := n * 2 ^ (-s).toNat
  let d' := d * 2 ^ s.toNat
  (n' / d', n' % d', d')

/-- The 24-bit position of n/d × 2^e, n and d positive. -/
def fpPos (n d : Nat) (e : Int) : FPos :=
  let s : Int := (Nat.log2 n : Int) - (Nat.log2 d : Int) - 23
  let t := scaleDiv n d s
  if t.1 < 2 ^ 23 then
    let t' := scaleDiv n d (s - 1)
    { q := t'.1, e := s - 1 + e, rem2 := 2 * t'.2.1, den := t'.2.2 }
  else { q := t.1, e := s + e, rem2 := 2 * t.2.1, den := t.2.2 }

/-- n/d × 2^e rounded once to nearest even (R107). -/
def fpRound (neg : Bool) (n d : Nat) (e : Int) : FRes :=
  if n = 0 then { bits := fpZero neg }
  else
    let p := fpPos n d e
    let up := decide (p.den < p.rem2) || (p.rem2 == p.den && p.q % 2 == 1)
    fpPack neg (if up then p.q + 1 else p.q) p.e

/-- The numbers within 1 ulp of a value, ulp being the spacing of FP32 numbers at the value (R109): its neighbours, and at a power of
two, below which the spacing is half as wide, those below it that are no further. -/
def ulpNear (p : FPos) : List (Nat × Int) :=
  [(p.q, p.e), (p.q + 1, p.e)] ++
    (if p.q = 2 ^ 23 then
      (if p.rem2 ≤ p.den then [(2 ^ 24 - 1, p.e - 1)] else []) ++ (if p.rem2 = 0 then [(2 ^ 24 - 2, p.e - 1)] else [])
    else if p.rem2 = 0 then [(p.q - 1, p.e)] else [])

/-- A pattern with a subnormal read as zero of its sign and any NaN as 0x7FC0_0000 (R107). -/
def fpCanon (x : F32) : F32 :=
  if isNan x then fpNan else if isSub x then fpZero (fpNeg x) else x

/-- One of the FP32 numbers within 1 ulp of n/d × 2^e, the one that Config.ulpPick takes for the input as it is read (R107, R109). Where
the nearest number is a normal one, so is the number taken: zero and infinity lie further off than 1 ulp. -/
def fpPick (code : Nat) (x : F32) (neg : Bool) (n d : Nat) (e : Int) : FRes :=
  if n = 0 then { bits := fpZero neg }
  else
    let near := fpRound neg n d e
    let all := (ulpNear (fpPos n d e)).map (fun c => fpPack neg c.1 c.2)
    let l := if near.fl = {} then all.filter (fun r => r.fl == {}) else all
    l.getD (Config.ulpPick code (fpCanon x) % l.length) near

/-- A signed dyadic number rounded once; an exact zero is +0 unless `zneg`. -/
def fpRoundInt (v : Int) (e : Int) (zneg : Bool := false) : FRes :=
  if v = 0 then { bits := fpZero zneg } else fpRound (decide (v < 0)) v.natAbs 1 e

/-- The sum of two dyadic numbers, as a number and its exponent. -/
def dyAdd (m1 : Int) (e1 : Int) (m2 : Int) (e2 : Int) : Int × Int :=
  let e := min e1 e2
  (m1 * 2 ^ (e1 - e).toNat + m2 * 2 ^ (e2 - e).toNat, e)

/-- A signed significand. -/
def signed (neg : Bool) (m : Nat) : Int := if neg then -(m : Int) else (m : Int)

/-- A NaN result: invalid unless an operand was a NaN (R110). -/
def nanRes (operandNan : Bool) (fl : FFlags) : FRes :=
  { bits := fpNan, fl := { fl with invalid := !operandNan } }

/-- The sum of two values read, with the events so far. -/
def addVal (a b : FVal) (fl : FFlags) : FRes :=
  match a, b with
  | .nan, _ => nanRes true fl
  | _, .nan => nanRes true fl
  | .inf s, .inf t => if s = t then { bits := fpInf s, fl := fl } else nanRes false fl
  | .inf s, .fin _ _ _ => { bits := fpInf s, fl := fl }
  | .fin _ _ _, .inf t => { bits := fpInf t, fl := fl }
  | .fin s m e, .fin t n f =>
    let r := dyAdd (signed s m) e (signed t n) f
    let o := fpRoundInt r.1 r.2 (m == 0 && n == 0 && s && t)
    { o with fl := fl.or o.fl }

/-- FADD (R147). -/
def fadd (a b : F32) : FRes := addVal (fpRead a) (fpRead b) ((fpIn a).or (fpIn b))

/-- A value with its sign inverted. -/
def FVal.negate : FVal → FVal
  | .nan => .nan
  | .inf s => .inf (!s)
  | .fin s m e => .fin (!s) m e

/-- FSUB (R147). -/
def fsub (a b : F32) : FRes := addVal (fpRead a) (fpRead b).negate ((fpIn a).or (fpIn b))

/-- The exact product of two values, or a NaN; `false` marks an invalid product. -/
def mulVal (a b : FVal) : FVal × Bool :=
  match a, b with
  | .nan, _ => (.nan, true)
  | _, .nan => (.nan, true)
  | .inf s, .inf t => (.inf (xor s t), true)
  | .inf s, .fin t m _ => if m = 0 then (.nan, false) else (.inf (xor s t), true)
  | .fin s m _, .inf t => if m = 0 then (.nan, false) else (.inf (xor s t), true)
  | .fin s m e, .fin t n f => (.fin (xor s t) (m * n) (e + f), true)

/-- FMUL (R147). -/
def fmul (a b : F32) : FRes :=
  let fl := (fpIn a).or (fpIn b)
  match mulVal (fpRead a) (fpRead b) with
  | (.nan, ok) => nanRes ok fl
  | (.inf s, _) => { bits := fpInf s, fl := fl }
  | (.fin s m e, _) =>
    let o := fpRound s m 1 e
    { o with fl := fl.or o.fl }

/-- FFMA: A × B + C with one rounding (R147). -/
def ffma (a b c : F32) : FRes :=
  let fl := ((fpIn a).or (fpIn b)).or (fpIn c)
  match mulVal (fpRead a) (fpRead b) with
  | (.nan, ok) => nanRes (ok || isNan c) fl
  | (v, _) => addVal v (fpRead c) fl

/-- The sign bit set or cleared. -/
def signed32 (neg : Bool) (m : BitVec 32) : F32 := if neg then m ||| 0x80000000 else m &&& 0x7FFFFFFF

/-- FNEG (R147). -/
def fneg (a : F32) : FRes :=
  { bits := if isNan a then fpNan else signed32 (!fpNeg a) (fpCanon a), fl := fpIn a }

/-- FABS (R147). -/
def fabs (a : F32) : FRes :=
  { bits := if isNan a then fpNan else signed32 false (fpCanon a), fl := fpIn a }

/-- The place of a non-NaN pattern in the order of R107: numbers by value, and -0 below +0. -/
def fpKey (x : F32) : Int :=
  let c := fpCanon x
  let m : Int := (c &&& 0x7FFFFFFF).toNat
  if fpNeg c then -m - 1 else m

/-- FMAX: maximumNumber, a NaN operand ignored, max(-0, +0) = +0 (R107). -/
def fmax (a b : F32) : FRes :=
  { fl := (fpIn a).or (fpIn b),
    bits := if isNan a then fpCanon b else if isNan b then fpCanon a
      else if fpKey a < fpKey b then fpCanon b else fpCanon a }

/-- FMIN: minimumNumber (R107). -/
def fmin (a b : F32) : FRes :=
  { fl := (fpIn a).or (fpIn b),
    bits := if isNan a then fpCanon b else if isNan b then fpCanon a
      else if fpKey b < fpKey a then fpCanon b else fpCanon a }

/-- The sign and zero of a pattern ignored for comparison: -0 equals +0 (R107). -/
def cmpKey (x : F32) : Int := let k := fpKey x; if k = -1 then 0 else k

/-- FCMP: Imm 0 equal, 1 not equal, 2 less, 3 less or equal (R147, R107). -/
def fcmp (imm : Nat) (a b : F32) : Bool :=
  if isNan a || isNan b then imm == 1
  else match imm with
    | 0 => cmpKey a == cmpKey b
    | 1 => cmpKey a != cmpKey b
    | 2 => decide (cmpKey a < cmpKey b)
    | _ => decide (cmpKey a ≤ cmpKey b)

/-- n/d rounded to the nearest integer, ties to even. -/
def rneDiv (n d : Nat) : Nat :=
  let q := n / d
  let r2 := 2 * (n % d)
  if decide (d < r2) || (r2 == d && q % 2 == 1) then q + 1 else q

/-- A dyadic number rounded to the nearest integer, ties to even. -/
def rneInt (neg : Bool) (m : Nat) (e : Int) : Int :=
  signed neg (rneDiv (m * 2 ^ e.toNat) (2 ^ (-e).toNat))

/-- CVTFS: FP32 to S32, nearest even and saturating (R107). -/
def cvtfs (a : F32) : FRes :=
  match fpRead a with
  | .nan => { bits := 0, fl := { invalid := true } }
  | .inf s => { bits := if s then 0x80000000 else 0x7FFFFFFF, fl := { invalid := true } }
  | .fin s m e =>
    { bits := BitVec.ofInt 32 (clampInt (-2147483648) 2147483647 (rneInt s m e)), fl := fpIn a }

/-- CVTSF: S32 to FP32, nearest even (R147). -/
def cvtsf (a : BitVec 32) : FRes := fpRoundInt a.toInt 0

/-- FDIV (R147, R150). -/
def fdiv (a b : F32) : FRes :=
  let fl := (fpIn a).or (fpIn b)
  match fpRead a, fpRead b with
  | .nan, _ => nanRes true fl
  | _, .nan => nanRes true fl
  | .inf _, .inf _ => nanRes false fl
  | .inf s, .fin t _ _ => { bits := fpInf (xor s t), fl := fl }
  | .fin s _ _, .inf t => { bits := fpZero (xor s t), fl := fl }
  | .fin s m e, .fin t n f =>
    if n = 0 then
      if m = 0 then nanRes false fl
      else { bits := fpInf (xor s t), fl := { fl with divZero := true } }
    else
      let o := fpRound (xor s t) m n (e - f)
      { o with fl := fl.or o.fl }

/-- m × 2^e with an even exponent and at least 60 bits more in m, so that a square root keeps the
bits a rounding needs. -/
def rootScale (m : Nat) (e : Int) : Nat × Int :=
  if e % 2 = 0 then (m * 2 ^ 64, e - 64) else (m * 2 ^ 65, e - 65)

/-- The integer square root, by bits from the top. -/
def isqrt (n : Nat) : Nat :=
  let b := bitLen n / 2 + 1
  (List.range b).foldl (fun r i =>
    let t := r + 2 ^ (b - 1 - i)
    if t * t ≤ n then t else r) 0

/-- FSQRT (R147, R150). -/
def fsqrt (a : F32) : FRes :=
  let fl := fpIn a
  match fpRead a with
  | .nan => nanRes true fl
  | .inf s => if s then nanRes false fl else { bits := fpInf false, fl := fl }
  | .fin s m e =>
    if m = 0 then { bits := fpZero s, fl := fl }
    else if s then nanRes false fl
    else
      let sc := rootScale m e
      let r := isqrt sc.1
      let o := fpRound false (2 * r + (if r * r = sc.1 then 0 else 1)) 1 (sc.2 / 2 - 1)
      { o with fl := fl.or o.fl }

/-- FRSQRT, within 1 ulp (R109, R150). -/
def frsqrt (a : F32) : FRes :=
  let fl := fpIn a
  match fpRead a with
  | .nan => nanRes true fl
  | .inf s => if s then nanRes false fl else { bits := fpZero false, fl := fl }
  | .fin s m e =>
    if m = 0 then { bits := fpInf s, fl := { fl with divZero := true } }
    else if s then nanRes false fl
    else
      -- 1/sqrt(m 2^e) = sqrt(2^k / m) 2^(-(e+k)/2), the floor of the root with its sticky bit
      let k : Int := if e % 2 = 0 then 160 else 161
      let n := 2 ^ k.toNat
      let r := isqrt (n / m)
      let exact := r * r * m == n
      let o := fpPick 0x22 a false (2 * r + (if exact then 0 else 1)) 1 (-(e + k) / 2 - 1)
      { o with fl := fl.or o.fl }

/-- v × 2^e exactly, with signed zero and infinity outside the normal range (R97). -/
def timesPow2 (v : FRes) (e : Int) : FRes :=
  match fpRead v.bits with
  | .fin s m x =>
    if m = 0 then v
    else
      let o := fpRound s m 1 (x + e)
      { o with fl := v.fl.or o.fl }
  | _ => v

end Sys2Proof.Machine
end

