-- ==== Sys2Proof/Machine/Operands.lean ====
section
/-!
DEFINITION. Sys2Proof/Machine/Operands.lean: the element formats (R85), the segment and weight-group layouts in
scratchpad (R116, R117), the lines that the arrays and the Skim unit read from them, and the
expansion of 4-bit weights (R88, R89).
-/
namespace Sys2Proof.Machine

/-- The element formats (R85). -/
inductive Fmt where
  | s8 | u8 | s4 | u4 | s4cb | u4zp | s16 | s32 | fp32 | s8bs | s4bs
  deriving DecidableEq, Repr

/-- The format a code names, if any (R85). -/
def fmtOf : Nat → Option Fmt
  | 0 => some .s8 | 1 => some .u8 | 2 => some .s4 | 3 => some .u4 | 4 => some .s4cb | 5 => some .u4zp
  | 6 => some .s16 | 7 => some .s32 | 8 => some .fp32 | 9 => some .s8bs | 10 => some .s4bs | _ => none

/-- The code of a format (R85). -/
def fmtCode : Fmt → Nat
  | .s8 => 0 | .u8 => 1 | .s4 => 2 | .u4 => 3 | .s4cb => 4 | .u4zp => 5 | .s16 => 6 | .s32 => 7
  | .fp32 => 8 | .s8bs => 9 | .s4bs => 10

/-- The format packs two elements to a byte (R86). -/
def fmtNibble : Fmt → Bool
  | .s4 | .u4 | .s4cb | .u4zp | .s4bs => true
  | _ => false

/-- Bytes of one 32 × 32 segment's mantissas. -/
def mantBytes : Fmt → Nat
  | .s8 | .u8 | .s8bs => 1024
  | .s4 | .u4 | .s4cb | .u4zp | .s4bs => 512
  | .s16 => 2048
  | .s32 | .fp32 => 4096

/-- The format carries scale bytes. -/
def fmtScaled : Fmt → Bool
  | .s8bs | .s4bs => true
  | _ => false

/-- Bytes of one segment (R116, R161). -/
def segBytes (f : Fmt) : Nat := mantBytes f + (if fmtScaled f then 32 else 0)

/-- The format's elements are unsigned operands of a product (R87). -/
def fmtUnsigned : Fmt → Bool
  | .u8 | .u4 => true
  | _ => false

/-- The byte at an offset of a list. -/
def byteAt (bs : List Byte) (i : Nat) : Nat := (bs.getD i 0).toNat

/-- The raw code of element `i` of a segment, row by row (R86, R116). -/
def rawElem (f : Fmt) (bs : List Byte) (i : Nat) : Nat :=
  if fmtNibble f then bitsOf (byteAt bs (i / 2)) (4 * (i % 2) + 3) (4 * (i % 2))
  else match f with
    | .s16 => leAt bs (2 * i) 2
    | .s32 | .fp32 => leAt bs (4 * i) 4
    | _ => byteAt bs i

/-- The integer a raw code stands for, 4-bit index formats as their code. -/
def elemVal (f : Fmt) (raw : Nat) : Int :=
  match f with
  | .s8 | .s8bs => sextNat 8 raw
  | .s4 | .s4bs => sextNat 4 raw
  | .s16 => sextNat 16 raw
  | .s32 => sextNat 32 raw
  | _ => (raw : Int)

/-- Element (r, c) of a segment. -/
def segElem (f : Fmt) (bs : List Byte) (r c : Nat) : Int := elemVal f (rawElem f bs (32 * r + c))

/-- The 32 scale bytes of a segment, or none (R116). -/
def segScales (f : Fmt) (bs : List Byte) : List Nat :=
  if fmtScaled f then (slice (fitTo 0 (segBytes f) bs) (mantBytes f) 32).map (fun b => b.toNat) else []

/-- Row or column `i` of a segment (R116). -/
def segLine (f : Fmt) (bs : List Byte) (turn : Bool) (i : Nat) : List Int :=
  (List.range 32).map (fun k => if turn then segElem f bs k i else segElem f bs i k)

/-- The scale byte used with line `i`: byte 0 for a turned read; 128 where the format has none (R116, R121). -/
def lineScale (f : Fmt) (bs : List Byte) (turn : Bool) (i : Nat) : Nat :=
  if fmtScaled f then (segScales f bs).getD (if turn then 0 else i) 0 else 128

/-- A turned read of a block-scaled segment whose scale bytes are not all equal sets TURN_SCALE (R95). -/
def turnScale (f : Fmt) (bs : List Byte) (turn : Bool) : Bool :=
  turn && (segScales f bs).any (fun m => m != (segScales f bs).headD 0)

/-! ### Weight groups (R117) -/

/-- Bytes of a weight group's 15 segments. -/
def groupBytes (f : Fmt) : Nat := 15 * segBytes f

/-- Bytes of a weight group with its expansion parameters (R117). -/
def groupSize (f : Fmt) : Nat :=
  groupBytes f + (match f with | .s4cb | .u4zp => 32 | _ => 0)

/-- The value a 4-bit code of a weight group expands to, from the group's 32-byte trailer (R88, R89);
every other format as it stands. -/
def expandWeight (f : Fmt) (trailer : List Byte) (raw : Nat) : Int :=
  match f with
  | .s4cb => sextNat 8 (byteAt trailer raw)
  | .u4zp =>
    let par := byteAt trailer 0
    ((raw : Int) - bitsOf par 3 0) * (bitsOf par 6 4 + 1 : Nat)
  | _ => elemVal f raw

/-- Row or column `i` of a segment of a weight group, expanded to S8. -/
def weightLine (f : Fmt) (bs trailer : List Byte) (turn : Bool) (i : Nat) : List Int :=
  (List.range 32).map (fun k =>
    expandWeight f trailer (rawElem f bs (if turn then 32 * i + k else 32 * k + i)))

/-- The high or low byte of an S16 element, as the byte passes feed it (R123). -/
def bytePass (pass : Nat) (v : Int) : Int :=
  if pass = 1 then v / 256 else if pass = 2 then v % 256 else v

/-! ### Writing segments -/

/-- The bytes of 1,024 elements in row order. -/
def packElems (f : Fmt) (es : List Int) : List Byte :=
  let code (w : Nat) (v : Int) : Nat := (BitVec.ofInt w v).toNat
  if fmtNibble f then
    (List.range 512).map (fun i =>
      BitVec.ofNat 8 (code 4 (es.getD (2 * i) 0) + 16 * code 4 (es.getD (2 * i + 1) 0)))
  else match f with
    | .s16 => es.flatMap (fun v => leBytes 2 (code 16 v))
    | .s32 => es.flatMap (fun v => leBytes 4 (code 32 v))
    | _ => es.map (fun v => BitVec.ofInt 8 v)

/-- The transpose of a segment, its scale bytes copied unchanged (R157). -/
def turnSegment (f : Fmt) (bs : List Byte) : List Byte :=
  packElems f ((List.range 1024).map (fun i => segElem f bs (i % 32) (i / 32)))
    ++ (segScales f bs).map (fun m => BitVec.ofNat 8 m)

/-- The FP32 patterns of a byte list, four bytes each. -/
def lanesOf (n : Nat) (bs : List Byte) : List F32 :=
  (List.range n).map (fun i => BitVec.ofNat 32 (leAt bs (4 * i) 4))

/-- The bytes of 32-bit lanes. -/
def laneBytes (ls : List F32) : List Byte := ls.flatMap (fun x => leBytes 4 x.toNat)

end Sys2Proof.Machine
end

