-- ==== Sys2Proof/Machine/Desc.lean ====
section
/-!
DEFINITION. Sys2Proof/Machine/Desc.lean: which operand descriptors are assigned (R119, R123, R147, R154, R156, R157,
R161, R187, R217, R251, R475), class by class. A descriptor that is not assigned is refused at
IMAGE_LOAD, and a record that holds one never runs.
-/
namespace Sys2Proof.Machine

/-- A 48-bit operand descriptor (R64). -/
abbrev Desc := BitVec 48

/-- A scratchpad unit that exists (R154). -/
def unitOk (u : Nat) : Bool := decide (u < 786432)

/-- Weight loads (R117 to R119): class 0x01 takes S8 and S8-BS, class 0x02 the 4-bit formats. -/
def weightOk (cls : Nat) (d : Desc) : Bool :=
  unitOk (fld d 47 28) && fld d 21 0 == 0 &&
  (match fmtOf (fld d 27 24) with
   | some .s8 | some .s8bs => cls == 1
   | some .s4 | some .s4bs | some .s4cb | some .u4zp => cls == 2
   | _ => false)

/-- Activations (R119 to R123). -/
def activationOk (cls : Nat) (d : Desc) : Bool :=
  unitOk (fld d 47 28) && fld d 2 0 == 0 &&
  (match fmtOf (fld d 9 6) with
   | some .s16 => cls == 3 && (fld d 5 4 == 1 || fld d 5 4 == 2)
   | some .s8 | some .u8 | some .s4 | some .u4 | some .s8bs | some .s4bs => fld d 5 4 == 0
   | _ => false)

/-- Requantising drains (R119, R126). -/
def drain5Ok (d : Desc) : Bool := unitOk (fld d 47 28) && decide (fld d 18 17 < 2)

/-- The assigned hooks (R151). -/
def hookOk (h : Nat) : Bool := decide (h ≤ 6) || (decide (8 ≤ h) && decide (h ≤ 12))

/-- Drains to FP32 (R126, R151). -/
def drain6Ok (d : Desc) : Bool := unitOk (fld d 47 28) && fld d 18 17 == 0 && hookOk (fld d 6 1)

/-- Skim issues (R141). An issue with Reuse set is held to an assigned Segment and Format too, though R142 ignores both fields there
(log 113). -/
def skimOk (d : Desc) : Bool :=
  fld d 0 0 == 0 && decide (fld d 23 20 < 15) &&
  (match fmtOf (fld d 17 14) with
   | some .s8 | some .s8bs | some .s4 | some .s4bs | some .s4cb | some .u4zp => true
   | _ => false)

/-- The class of a vector function code (R147, R187). -/
def vectorClass (f : Nat) : Option Nat :=
  if f ≤ 0x0B ∨ (0x10 ≤ f ∧ f ≤ 0x1F) then some 0x20
  else if 0x20 ≤ f ∧ f ≤ 0x22 then some 0x21
  else if 0x28 ≤ f ∧ f ≤ 0x2E then some 0x22
  else if 0x30 ≤ f ∧ f ≤ 0x34 then some 0x23
  else if 0x40 ≤ f ∧ f ≤ 0x47 then some 0x24
  else none

/-- The part codes a fused function takes (R187). -/
def partOk (f part : Nat) : Bool :=
  match f with
  | 0x40 | 0x45 | 0x46 => decide (part ≤ 3)
  | 0x41 => decide (part ≤ 1)
  | 0x42 | 0x43 => part == 0
  | 0x44 => part == 1
  | 0x47 => part == 0 || part == 2
  | _ => false

/-- Registers a fused function writes from Dest on (R187). -/
def destCount (f part : Nat) : Nat :=
  match f with
  | 0x43 | 0x44 => 4
  | 0x45 => if part = 3 then 2 else 1
  | 0x47 => 1
  | _ => 0

/-- Vector issues (R147, R187): a compare names predicate 1 to 7 and an assigned relation; a fused function names
registers and a part that exist. Imm above bits [2:0] makes no relation of a compare, and counts for nothing in a select (log 114). -/
def vectorOk (cls : Nat) (d : Desc) : Bool :=
  let f := fld d 47 40
  vectorClass f == some cls && fld d 12 7 == 0 &&
  (if cls = 0x24 then
    decide (fld d 33 28 ≤ 60) && decide (fld d 27 22 ≤ 60) && partOk f (fld d 21 16) && fld d 15 13 == 0
      && decide (fld d 39 34 + destCount f (fld d 21 16) ≤ 64)
   else if f = 0x06 ∨ f = 0x1D then fld d 36 34 != 0 && decide (fld d 6 0 ≤ 3)
   else true)

/-- Scratchpad loads and stores (R156). -/
def scratchOk (d : Desc) : Bool :=
  let n := fld d 27 23
  let st := fld d 22 22
  let ix := fld d 17 12
  let fm := fld d 11 8
  unitOk (fld d 47 28) && fld d 7 0 == 0 &&
  (match fld d 21 18 with
   | 0 => decide (n ≤ 15) && fm == 0
   | 1 => decide (1 ≤ ix) && decide (ix ≤ 7) && n == 0 && fm == 0
   | 2 | 3 => st == 0 && n == 0 && fm == 0
   | 4 => st == 0 && decide (ix ≤ 31) && n == 0 &&
      (match fmtOf fm with
       | some .s8 | some .u8 | some .s4 | some .u4 | some .s8bs | some .s4bs => true
       | _ => false)
   | 5 => st == 0 && n == 0 && fm == 0
   | 6 => st == 0 && decide (ix ≤ 15) && n == 0 && fm == 0
   | 7 => st == 1 && ix == 0 && fm == 0
   | _ => false)

/-- Turns (R157). -/
def turnOk (d : Desc) : Bool :=
  unitOk (fld d 47 28) && unitOk (fld d 27 8) && fld d 3 0 == 0 &&
  (match fmtOf (fld d 7 4) with
   | some .s8 | some .u8 | some .s4 | some .u4 | some .s8bs | some .s4bs => true
   | _ => false)

/-- Direction, Side and Convert agree (R161). -/
def convertOk (code dir side : Nat) : Bool :=
  match code with
  | 0 => side == 0
  | 1 | 2 | 3 | 4 | 5 => true
  | 6 | 7 | 8 => (dir == 0 && side == 0) || (dir == 1 && side == 1)
  | 9 | 10 => dir == 0 && side == 0
  | _ => false

/-- Memory issues of classes 0x40 to 0x44 (R159, R161). -/
def memoryOk (cls : Nat) (d : Desc) : Bool :=
  let code := fld d 3 0
  let dir := fld d 5 5
  unitOk (fld d 47 28) && convertOk code dir (fld d 4 4) && (code == 0 || fld d 10 6 == 0) &&
  (match cls with
   | 0x40 | 0x41 => dir == 0
   | 0x42 => dir == 1
   | _ => code == 0)

/-- Puts and takes (R217). -/
def stashOk (d : Desc) : Bool :=
  let code := fld d 3 0
  unitOk (fld d 47 28) && fld d 10 6 == 0 && decide (1 ≤ code) && decide (code ≤ 4)
    && (fld d 5 5 == 0 || fld d 4 4 == 0)

/-- Transfers (R360). -/
def transferOk (d : Desc) : Bool := unitOk (fld d 34 15) && fld d 14 0 == 0

/-- Screed issues (R251). -/
def screedOk (d : Desc) : Bool := unitOk (fld d 47 28) && decide (fld d 13 12 < 3)

/-- Arrives (R475), by their fields alone; `ownDie` is the tile's die. -/
def syncOk (cls ownDie : Nat) (d : Desc) : Bool :=
  fld d 0 0 == 0 && fld d 33 20 != 0 &&
  (match cls with
   | 0x80 => fld d 19 17 == 0 && fld d 16 7 == 0 && fld d 6 1 == 0
   | 0x81 => decide (fld d 19 17 ≤ 4) && fld d 19 17 != ownDie && fld d 16 7 == 0 && fld d 6 1 == 0
   | _ => decide (fld d 19 17 ≤ 4))

end Sys2Proof.Machine
end

