-- ==== Sys2Proof/Machine/Flags.lean ====
section
/-!
DEFINITION. Sys2Proof/Machine/Flags.lean: the sticky arithmetic flags and counts of a tile (R110, R150), the arithmetic
summary they are captured into (R111) and the conversion status word (R106).
-/
namespace Sys2Proof.Machine

/-- A tile's arithmetic flags and counts since the first cycle of the step (R110, R111). -/
structure ArithSum where
  firstInvalid : Nat := 0
  invalid : Nat := 0
  nonFinite : Nat := 0
  convClamps : Nat := 0
  drainSats : Nat := 0
  firstLane : Nat := 0
  accSat : Bool := false
  drainSat : Bool := false
  convSat : Bool := false
  convNonFinite : Bool := false
  invalidFlag : Bool := false
  divZero : Bool := false
  overflow : Bool := false
  underflow : Bool := false
  inputFlush : Bool := false
  turnScale : Bool := false
  deriving DecidableEq, Repr

/-- The flag bits 56 to 47, as a 10-bit number (R111). -/
def ArithSum.flagBits (a : ArithSum) : Nat :=
  packMsb [(1, b2n a.accSat), (1, b2n a.drainSat), (1, b2n a.convSat), (1, b2n a.convNonFinite),
    (1, b2n a.invalidFlag), (1, b2n a.divZero), (1, b2n a.overflow), (1, b2n a.underflow),
    (1, b2n a.inputFlush), (1, b2n a.turnScale)]

/-- The 32-byte arithmetic summary (R111). -/
def ArithSum.bytes (a : ArithSum) : List Byte :=
  leBytes 32 (packMsb [(64, a.firstInvalid), (32, a.invalid), (32, a.nonFinite), (32, a.convClamps),
    (32, a.drainSats), (7, a.firstLane), (10, a.flagBits), (47, 0)])

/-- Adds the flags of an operation, without its invalid results (R150). -/
def ArithSum.addFlags (a : ArithSum) (f : FFlags) : ArithSum :=
  { a with
    divZero := a.divZero || f.divZero, overflow := a.overflow || f.overflow,
    underflow := a.underflow || f.underflow, inputFlush := a.inputFlush || f.inputFlush }

/-- Counts `n` invalid results of one issue at `stamp`, the lowest of them in `lane` (R110). The first
invalid result is the one with the earliest issue cycle, and in one cycle the lowest lane. -/
def ArithSum.addInvalid (a : ArithSum) (n stamp lane : Nat) : ArithSum :=
  if n = 0 then a
  else
    let first := a.invalid == 0 || decide (stamp < a.firstInvalid) ||
      (stamp == a.firstInvalid && decide (lane < a.firstLane))
    { a with
      invalid := satNat 32 (a.invalid + n), invalidFlag := true,
      firstInvalid := if first then stamp else a.firstInvalid,
      firstLane := if first then lane else a.firstLane }

/-- Adds the results of lane operations issued at `stamp`, each with its lane number (R110, R150). -/
def ArithSum.addLanes (a : ArithSum) (stamp : Nat) (rs : List (Nat × FRes)) : ArithSum :=
  let inv := rs.filter (fun e => e.2.fl.invalid)
  (rs.foldl (fun acc e => acc.addFlags e.2.fl) a).addInvalid inv.length stamp
    (match inv with | [] => 0 | e :: _ => e.1)

/-- Counts drained values that were clipped (R92, R98). -/
def ArithSum.addDrainSats (a : ArithSum) (n : Nat) : ArithSum :=
  if n = 0 then a else { a with drainSats := satNat 32 (a.drainSats + n), drainSat := true }

/-- Sets ACC_SAT (R91, R96). -/
def ArithSum.setAccSat (a : ArithSum) (b : Bool) : ArithSum := { a with accSat := a.accSat || b }

/-- Sets TURN_SCALE (R95). -/
def ArithSum.setTurnScale (a : ArithSum) (b : Bool) : ArithSum := { a with turnScale := a.turnScale || b }

/-- The events of one conversion from FP32 (R105, R106), with the clamped elements counted. -/
structure ConvStatus where
  first : Nat := 0xFFFFFFFF
  count : Nat := 0
  inputFlush : Bool := false
  nanSeen : Bool := false
  infSeen : Bool := false
  clamps : Nat := 0
  deriving DecidableEq, Repr

/-- The conversion status word, as the 32 bytes of its scratchpad unit (R106). -/
def ConvStatus.unitBytes (c : ConvStatus) : List Byte :=
  leBytes 32 (packMsb [(32, c.first), (24, satNat 24 c.count), (3, 0), (1, b2n c.inputFlush),
    (1, b2n (c.clamps != 0)), (1, 0), (1, b2n c.nanSeen), (1, b2n c.infSeen)])

/-- One FP32 input of a conversion, at element `i` (R105). -/
def ConvStatus.see (c : ConvStatus) (i : Nat) (x : F32) : ConvStatus :=
  if isFinite x then { c with inputFlush := c.inputFlush || isSub x }
  else { c with
      first := if c.count = 0 then i else c.first, count := c.count + 1,
      nanSeen := c.nanSeen || isNan x, infSeen := c.infSeen || isInf x }

/-- Adds a conversion to the summary (R106, R111). A flushed input sets the tile's INPUT_FLUSH too (log 112). -/
def ArithSum.addConv (a : ArithSum) (c : ConvStatus) : ArithSum :=
  { a with
    nonFinite := satNat 32 (a.nonFinite + satNat 24 c.count),
    convNonFinite := a.convNonFinite || c.count != 0,
    convClamps := satNat 32 (a.convClamps + c.clamps), convSat := a.convSat || c.clamps != 0,
    inputFlush := a.inputFlush || c.inputFlush }

end Sys2Proof.Machine
end

