-- ==== Sys2Proof/Machine/Conv.lean ====
section
/-!
DEFINITION. Sys2Proof/Machine/Conv.lean: the conversions of the load and store paths (R100 to R106, R161) and the
exact arithmetic of the products and drains (R90 to R98).
-/
namespace Sys2Proof.Machine

/-! ### Products and drains -/

/-- The exact tree sum of a line and a column (R90). -/
def treeSum (a w : List Int) : Int := (List.zipWith (fun x y => x * y) a w).foldl (fun s x => s + x) 0

/-- A signed value saturated to n bits. -/
def satInt (n : Nat) (v : Int) : Int := clampInt (-(2 ^ (n - 1))) (2 ^ (n - 1) - 1) v

/-- A signed value lies outside n bits. -/
def satHit (n : Nat) (v : Int) : Bool := satInt n v != v

/-- One accumulate into a slot: the new slot and ACC_SAT (R91, R96, R121). -/
def accumulate (bits : Nat) (start : Bool) (slot t : Int) : Int × Bool :=
  if start then (t, false) else (satInt bits (slot + t), satHit bits (slot + t))

/-- The floor of (acc + bias) / 2^s, saturated, with DRAIN_SAT (R98). -/
def requantise (bits shift : Nat) (acc bias : Int) : Int × Bool :=
  let v := (acc + bias) / 2 ^ shift
  (satInt bits v, satHit bits v)

/-- A drain to FP32 (R97). -/
def drainFp32 (acc : Int) (eTotal : Int) : FRes := timesPow2 (fpRoundInt acc 0) eTotal

/-! ### FP32 to the integer formats (R101, R102, R105) -/

/-- An element after R105: non-finite and subnormal elements read as zero. -/
def convIn (x : F32) : FVal :=
  match fpRead x with
  | .fin s m e => .fin s m e
  | _ => .fin false 0 0

/-- The magnitude of an element in units of 2^-149. -/
def convMag (x : F32) : Nat :=
  match convIn x with
  | .fin _ m e => m * 2 ^ (e + 149).toNat
  | _ => 0

/-- The fine scale of a block with coarse exponent e (R101). -/
def fineScale (e : Int) (qmax : Nat) (xs : List F32) : Nat :=
  let amax := xs.foldl (fun a x => max a (convMag x)) 0
  let k : Int := -149 - e
  if amax = 0 then 0
  else min 255 (ceilDiv (amax * 128 * 2 ^ k.toNat) (qmax * 2 ^ (-k).toNat))

/-- The mantissa of one element under fine scale m, and whether it was clamped (R101). -/
def bsMantissa (e : Int) (qmax m : Nat) (x : F32) : Int × Bool :=
  if m = 0 then (0, false)
  else
    let k : Int := -149 - e
    let q := signed (fpNeg x) (rneDiv (convMag x * 128 * 2 ^ k.toNat) (m * 2 ^ (-k).toNat))
    let c := clampInt (-(qmax : Int)) qmax q
    (c, c != q)

/-- FP32 to S16 (R102). -/
def s16Mantissa (e : Int) (x : F32) : Int × Bool :=
  match convIn x with
  | .fin s m x' =>
    let q := rneInt s m (x' - e)
    let c := clampInt (-32767) 32767 q
    (c, c != q)
  | _ => (0, false)

/-- A segment converted from FP32 to an integer format: its bytes and its status (R101 to R106). -/
def convFrom (f : Fmt) (square : Bool) (e : Int) (xs : List F32) : List Byte × ConvStatus :=
  let st := xs.zipIdx.foldl (fun c p => c.see p.2 p.1) ({} : ConvStatus)
  match f with
  | .s16 =>
    let qs := xs.map (s16Mantissa e)
    (packElems .s16 (qs.map (fun p => p.1)), { st with clamps := (qs.filter (fun p => p.2)).length })
  | _ =>
    let qmax := if f = .s4bs then 7 else 127
    let ms := if square then List.replicate 32 (fineScale e qmax xs)
      else (List.range 32).map (fun r => fineScale e qmax (slice xs (32 * r) 32))
    let qs := xs.zipIdx.map (fun p => bsMantissa e qmax (ms.getD (p.2 / 32) 0) p.1)
    (packElems f (qs.map (fun p => p.1)) ++ ms.map (fun m => BitVec.ofNat 8 m),
     { st with clamps := (qs.filter (fun p => p.2)).length })

/-! ### Integer formats to FP32 (R103, R104) -/

/-- A segment of an integer format converted to FP32, with its events (R103). -/
def convTo (f : Fmt) (e : Int) (bs : List Byte) : List FRes :=
  let sc := segScales f bs
  (List.range 1024).map (fun i =>
    let q := elemVal f (rawElem f bs i)
    if fmtScaled f then fpRoundInt (q * sc.getD (i / 32) 0) (e - 7) else fpRoundInt q e)

/-- A 4-bit segment expanded by the FP32 table that follows it (R104). -/
def convTable (bs : List Byte) : List F32 :=
  let table := lanesOf 16 (bs.drop 512)
  (List.range 1024).map (fun i => table.getD (rawElem .u4 bs i) 0)

/-- A 4-bit segment expanded by the scale and zero point that follow it (R104). -/
def convScaleZero (bs : List Byte) : List F32 :=
  let f : F32 := BitVec.ofNat 32 (leAt bs 512 4)
  let z : Int := bitsOf (byteAt bs 516) 3 0
  (List.range 1024).map (fun i =>
    (fmul (cvtsf (BitVec.ofInt 32 ((rawElem .u4 bs i : Int) - z))).bits f).bits)

/-- The integer side of a conversion code (R161): its format, and whether its blocks are square. -/
def convCode : Nat → Option (Fmt × Bool)
  | 1 => some (.s8bs, false) | 2 => some (.s8bs, true) | 3 => some (.s4bs, false) | 4 => some (.s4bs, true)
  | 5 => some (.s16, false) | 6 => some (.s32, false) | 7 => some (.s8, false) | 8 => some (.s4, false)
  | _ => none

/-- What a conversion delivers: its bytes, the status word of a conversion from FP32, and the events
of a conversion to FP32. -/
structure ConvOut where
  bytes : List Byte
  status : Option ConvStatus := none
  fl : FFlags := {}
  deriving DecidableEq, Repr

/-- The conversion of code `code` with exponent `e`. `toFp` says that FP32 is the destination (R161). -/
def convert (code : Nat) (toFp : Bool) (e : Int) (bs : List Byte) : ConvOut :=
  if code = 9 then { bytes := laneBytes (convTable bs) }
  else if code = 10 then { bytes := laneBytes (convScaleZero bs) }
  else match convCode code with
    | none => { bytes := bs }
    | some (f, square) =>
      if toFp then
        let rs := convTo f e bs
        { bytes := laneBytes (rs.map (fun r => r.bits)), fl := rs.foldl (fun a r => a.or r.fl) {} }
      else
        let r := convFrom f square e (lanesOf 1024 bs)
        { bytes := r.1, status := some r.2 }

/-- Memory-side bytes of a conversion code (R161). `fpMem` says that memory holds FP32. -/
def convMemBytes (code : Nat) (fpMem : Bool) : Nat :=
  if code = 9 ∨ code = 10 then 576
  else if fpMem then 4096
  else match convCode code with
    | some (f, _) => segBytes f
    | none => 0

/-- A coarse exponent byte: two's complement, with -127 and -128 read as -126 (R94). -/
def coarseExp (b : Nat) : Int := max (-126) (sextNat 8 b)

end Sys2Proof.Machine
end

