-- ==== Sys2Proof/Machine/Crypto.lean ====
section
/-!
DEFINITION. Sys2Proof/Machine/Crypto.lean: the standard algorithms the spec names, as functions on
bytes: SHA-256 (FIPS 180-4, R60, R284, R376), HMAC and HKDF (RFC 5869, R451), ECDSA and ECDH on
P-256 (R60, R440, R449, R451), AES-256 with XTS (IEEE 1619, R175, R377) and GCM (R451), the frame
word's CRC-8 (R27) and the flit's CRC-32C (R342).
-/
namespace Sys2Proof.Machine

/-! ### CRC-8 of the frame word and CRC-32C of a flit -/

/-- One bit into a CRC-8, polynomial 0x07, most significant bit first (R27). -/
def crc8Bit (c : Nat) (b : Bool) : Nat :=
  let s := (c * 2) % 256
  if xor (bitOf c 7) b then s ^^^ 0x07 else s

/-- CRC-8 of the 48 frame-number bits, fed from bit 55 of the word down to bit 8 (R27). -/
def crc8Frame (frame : Nat) : Nat :=
  (List.range 48).foldl (fun c i => crc8Bit c (bitOf frame (47 - i))) 0

/-- One byte into a reflected CRC-32C. -/
def crc32cByte (c : Nat) (b : Byte) : Nat :=
  (List.range 8).foldl (fun c _ => if c % 2 = 1 then (c >>> 1) ^^^ 0x82F63B78 else c >>> 1) (c ^^^ b.toNat)

/-- CRC-32C with initial value and final XOR all ones (R342). -/
def crc32c (bs : List Byte) : Nat := (bs.foldl crc32cByte 0xFFFFFFFF) ^^^ 0xFFFFFFFF

/-! ### SHA-256 -/

/-- The SHA-256 round constants. -/
def shaK : List (BitVec 32) :=
  [0x428a2f98, 0x71374491, 0xb5c0fbcf, 0xe9b5dba5, 0x3956c25b, 0x59f111f1, 0x923f82a4, 0xab1c5ed5]
  ++ [0xd807aa98, 0x12835b01, 0x243185be, 0x550c7dc3, 0x72be5d74, 0x80deb1fe, 0x9bdc06a7, 0xc19bf174]
  ++ [0xe49b69c1, 0xefbe4786, 0xfc19dc6, 0x240ca1cc, 0x2de92c6f, 0x4a7484aa, 0x5cb0a9dc, 0x76f988da]
  ++ [0x983e5152, 0xa831c66d, 0xb00327c8, 0xbf597fc7, 0xc6e00bf3, 0xd5a79147, 0x6ca6351, 0x14292967]
  ++ [0x27b70a85, 0x2e1b2138, 0x4d2c6dfc, 0x53380d13, 0x650a7354, 0x766a0abb, 0x81c2c92e, 0x92722c85]
  ++ [0xa2bfe8a1, 0xa81a664b, 0xc24b8b70, 0xc76c51a3, 0xd192e819, 0xd6990624, 0xf40e3585, 0x106aa070]
  ++ [0x19a4c116, 0x1e376c08, 0x2748774c, 0x34b0bcb5, 0x391c0cb3, 0x4ed8aa4a, 0x5b9cca4f, 0x682e6ff3]
  ++ [0x748f82ee, 0x78a5636f, 0x84c87814, 0x8cc70208, 0x90befffa, 0xa4506ceb, 0xbef9a3f7, 0xc67178f2]

/-- The SHA-256 initial hash value. -/
def shaInit : List (BitVec 32) := [0x6a09e667, 0xbb67ae85, 0x3c6ef372, 0xa54ff53a, 0x510e527f, 0x9b05688c, 0x1f83d9ab, 0x5be0cd19]

/-- A message padded to whole 64-byte blocks. -/
def shaPad (bs : List Byte) : List Byte :=
  bs ++ [0x80] ++ List.replicate ((119 - bs.length % 64) % 64) 0 ++ beBytes 8 (8 * bs.length)

/-- The 64-word message schedule, newest word first. -/
def shaSchedule (ws : List (BitVec 32)) : List (BitVec 32) :=
  (List.range 48).foldl (fun acc _ =>
    let w2 := acc.getD 1 0
    let w15 := acc.getD 14 0
    let s1 := (w2.rotateRight 17) ^^^ (w2.rotateRight 19) ^^^ (w2 >>> 10)
    let s0 := (w15.rotateRight 7) ^^^ (w15.rotateRight 18) ^^^ (w15 >>> 3)
    (s1 + acc.getD 6 0 + s0 + acc.getD 15 0) :: acc) ws.reverse

/-- The eight working variables. -/
structure ShaVars where
  a : BitVec 32
  b : BitVec 32
  c : BitVec 32
  d : BitVec 32
  e : BitVec 32
  f : BitVec 32
  g : BitVec 32
  h : BitVec 32
  deriving DecidableEq, Repr

/-- One SHA-256 round. -/
def shaRound (v : ShaVars) (k w : BitVec 32) : ShaVars :=
  let s1 := (v.e.rotateRight 6) ^^^ (v.e.rotateRight 11) ^^^ (v.e.rotateRight 25)
  let ch := (v.e &&& v.f) ^^^ ((~~~v.e) &&& v.g)
  let t1 := v.h + s1 + ch + k + w
  let s0 := (v.a.rotateRight 2) ^^^ (v.a.rotateRight 13) ^^^ (v.a.rotateRight 22)
  let mj := (v.a &&& v.b) ^^^ (v.a &&& v.c) ^^^ (v.b &&& v.c)
  { a := t1 + s0 + mj, b := v.a, c := v.b, d := v.c, e := v.d + t1, f := v.e, g := v.f, h := v.g }

/-- One block into the hash value. -/
def shaBlock (v : ShaVars) (block : List Byte) : ShaVars :=
  let ws := (List.range 16).map (fun i => BitVec.ofNat 32 (beNat (slice block (4 * i) 4)))
  let r := (shaK.zip (shaSchedule ws).reverse).foldl (fun v kw => shaRound v kw.1 kw.2) v
  { a := v.a + r.a, b := v.b + r.b, c := v.c + r.c, d := v.d + r.d,
    e := v.e + r.e, f := v.f + r.f, g := v.g + r.g, h := v.h + r.h }

/-- The blocks of a padded message. -/
def shaBlocks : Nat → List Byte → ShaVars → ShaVars
  | 0, _, v => v
  | n + 1, bs, v => shaBlocks n (bs.drop 64) (shaBlock v (bs.take 64))

/-- SHA-256 of a byte string: 32 bytes. -/
def sha256 (bs : List Byte) : List Byte :=
  let p := shaPad bs
  let i := fun k => shaInit.getD k 0
  let v := shaBlocks (p.length / 64) p
    { a := i 0, b := i 1, c := i 2, d := i 3, e := i 4, f := i 5, g := i 6, h := i 7 }
  ([v.a, v.b, v.c, v.d, v.e, v.f, v.g, v.h].map (fun w => beBytes 4 w.toNat)).flatten

/-- HMAC-SHA-256. -/
def hmacSha256 (key msg : List Byte) : List Byte :=
  let k := fitTo 0 64 (if key.length > 64 then sha256 key else key)
  sha256 (k.map (fun b => b ^^^ 0x5c) ++ sha256 (k.map (fun b => b ^^^ 0x36) ++ msg))

/-- HKDF-SHA-256 with a 32-byte output (R451). -/
def hkdf32 (salt ikm info : List Byte) : List Byte :=
  hmacSha256 (hmacSha256 salt ikm) (info ++ [1])

/-! ### P-256 -/

/-- The field prime of P-256. -/
def p256P : Nat := 0xffffffff00000001000000000000000000000000ffffffffffffffffffffffff
/-- The group order of P-256. -/
def p256N : Nat := 0xffffffff00000000ffffffffffffffffbce6faada7179e84f3b9cac2fc632551
/-- The coefficient b of P-256. -/
def p256B : Nat := 0x5ac635d8aa3a93e7b3ebbd55769886bc651d06b0cc53b0f63bce3c3e27d2604b
/-- The base point. -/
def p256G : Nat × Nat :=
  (0x6b17d1f2e12c4247f8bce6e563a440f277037d812deb33a0f4a13945d898c296,
   0x4fe342e2fe1a7f9b8ee7eb4a7c0f9e162bce33576b315ececbb6406837bf51f5)

/-- Modular power by squaring, over `bits` bits of the exponent. -/
def powMod (m b e : Nat) : Nat → Nat
  | 0 => 1 % m
  | bits + 1 =>
    let r := powMod m b (e / 2) bits
    let q := r * r % m
    if e % 2 = 1 then q * b % m else q

/-- Inverse modulo a prime. -/
def invMod (m a : Nat) : Nat := powMod m (a % m) (m - 2) 256

/-- `a - b` modulo `m`. -/
def subMod (m a b : Nat) : Nat := (a + (m - b % m)) % m

/-- A point in Jacobian coordinates; z = 0 is the point at infinity. -/
structure JPoint where
  x : Nat
  y : Nat
  z : Nat
  deriving DecidableEq, Repr

/-- The point at infinity. -/
def JPoint.zero : JPoint := { x := 1, y := 1, z := 0 }

/-- Twice a point. -/
def JPoint.double (q : JPoint) : JPoint :=
  if q.z = 0 || q.y = 0 then JPoint.zero
  else
    let zz := q.z * q.z % p256P
    let yy := q.y * q.y % p256P
    let s := 4 * q.x * yy % p256P
    let m := 3 * (subMod p256P q.x zz) * (q.x + zz) % p256P
    let x' := subMod p256P (m * m) (2 * s)
    { x := x',
      y := subMod p256P (m * (subMod p256P s x')) (8 * yy * yy),
      z := 2 * q.y * q.z % p256P }

/-- The sum of two points. -/
def JPoint.add (a b : JPoint) : JPoint :=
  if a.z = 0 then b
  else if b.z = 0 then a
  else
    let z1 := a.z * a.z % p256P
    let z2 := b.z * b.z % p256P
    let u1 := a.x * z2 % p256P
    let u2 := b.x * z1 % p256P
    let s1 := a.y * z2 * b.z % p256P
    let s2 := b.y * z1 * a.z % p256P
    if u1 = u2 then (if s1 = s2 then a.double else JPoint.zero)
    else
      let h := subMod p256P u2 u1
      let r := subMod p256P s2 s1
      let hh := h * h % p256P
      let hhh := hh * h % p256P
      let v := u1 * hh % p256P
      let x' := subMod p256P (subMod p256P (r * r) hhh) (2 * v)
      { x := x',
        y := subMod p256P (r * (subMod p256P v x')) (s1 * hhh),
        z := a.z * b.z * h % p256P }

/-- `k` times a point, over `bits` bits of `k`. -/
def JPoint.mul (q : JPoint) (k : Nat) : Nat → JPoint
  | 0 => JPoint.zero
  | bits + 1 =>
    let r := (JPoint.mul q (k / 2) bits).double
    if k % 2 = 1 then r.add q else r

/-- The affine point, or none for infinity. -/
def JPoint.affine (q : JPoint) : Option (Nat × Nat) :=
  if q.z = 0 then none
  else
    let i := invMod p256P q.z
    let ii := i * i % p256P
    some (q.x * ii % p256P, q.y * ii * i % p256P)

/-- The affine point is on P-256. -/
def onCurve (pt : Nat × Nat) : Bool :=
  decide (pt.1 < p256P) && decide (pt.2 < p256P)
    && (pt.2 * pt.2 % p256P == (pt.1 * pt.1 * pt.1 + 3 * (p256P - pt.1) + p256B) % p256P)

/-- `k` times an affine point. -/
def pointMul (k : Nat) (pt : Nat × Nat) : Option (Nat × Nat) :=
  (JPoint.mul { x := pt.1, y := pt.2, z := 1 } k 256).affine

/-- A public key as 64 bytes: x then y, big-endian. -/
def keyBytes (pt : Nat × Nat) : List Byte := beBytes 32 pt.1 ++ beBytes 32 pt.2

/-- The point that 64 key bytes give. -/
def keyPoint (bs : List Byte) : Nat × Nat := (beNat (bs.take 32), beNat (slice bs 32 32))

/-- The public key of a private scalar. -/
def publicKey (d : Nat) : List Byte := keyBytes ((pointMul d p256G).getD (0, 0))

/-- ECDSA P-256 verification over a 32-byte digest (R60, R440). -/
def ecdsaVerify (key digest : List Byte) (r s : Nat) : Bool :=
  let q := keyPoint key
  if r = 0 || s = 0 || decide (p256N ≤ r) || decide (p256N ≤ s) || !onCurve q then false
  else
    let w := invMod p256N s
    let u1 := beNat digest * w % p256N
    let u2 := r * w % p256N
    let pt := (JPoint.mul { x := p256G.1, y := p256G.2, z := 1 } u1 256).add
      (JPoint.mul { x := q.1, y := q.2, z := 1 } u2 256)
    match pt.affine with
    | none => false
    | some a => a.1 % p256N == r

/-- ECDSA P-256 signature with private scalar `d` and nonce `k`: r then s, big-endian (R449). -/
def ecdsaSign (d k : Nat) (digest : List Byte) : List Byte :=
  match pointMul k p256G with
  | none => List.replicate 64 0
  | some pt =>
    let r := pt.1 % p256N
    let s := invMod p256N k * (beNat digest + r * d) % p256N
    beBytes 32 r ++ beBytes 32 s

/-! ### AES-256 -/

/-- The AES substitution box. -/
def aesSbox : List Nat :=
  [0x63, 0x7c, 0x77, 0x7b, 0xf2, 0x6b, 0x6f, 0xc5, 0x30, 0x1, 0x67, 0x2b, 0xfe, 0xd7, 0xab, 0x76]
  ++ [0xca, 0x82, 0xc9, 0x7d, 0xfa, 0x59, 0x47, 0xf0, 0xad, 0xd4, 0xa2, 0xaf, 0x9c, 0xa4, 0x72, 0xc0]
  ++ [0xb7, 0xfd, 0x93, 0x26, 0x36, 0x3f, 0xf7, 0xcc, 0x34, 0xa5, 0xe5, 0xf1, 0x71, 0xd8, 0x31, 0x15]
  ++ [0x4, 0xc7, 0x23, 0xc3, 0x18, 0x96, 0x5, 0x9a, 0x7, 0x12, 0x80, 0xe2, 0xeb, 0x27, 0xb2, 0x75]
  ++ [0x9, 0x83, 0x2c, 0x1a, 0x1b, 0x6e, 0x5a, 0xa0, 0x52, 0x3b, 0xd6, 0xb3, 0x29, 0xe3, 0x2f, 0x84]
  ++ [0x53, 0xd1, 0x0, 0xed, 0x20, 0xfc, 0xb1, 0x5b, 0x6a, 0xcb, 0xbe, 0x39, 0x4a, 0x4c, 0x58, 0xcf]
  ++ [0xd0, 0xef, 0xaa, 0xfb, 0x43, 0x4d, 0x33, 0x85, 0x45, 0xf9, 0x2, 0x7f, 0x50, 0x3c, 0x9f, 0xa8]
  ++ [0x51, 0xa3, 0x40, 0x8f, 0x92, 0x9d, 0x38, 0xf5, 0xbc, 0xb6, 0xda, 0x21, 0x10, 0xff, 0xf3, 0xd2]
  ++ [0xcd, 0xc, 0x13, 0xec, 0x5f, 0x97, 0x44, 0x17, 0xc4, 0xa7, 0x7e, 0x3d, 0x64, 0x5d, 0x19, 0x73]
  ++ [0x60, 0x81, 0x4f, 0xdc, 0x22, 0x2a, 0x90, 0x88, 0x46, 0xee, 0xb8, 0x14, 0xde, 0x5e, 0xb, 0xdb]
  ++ [0xe0, 0x32, 0x3a, 0xa, 0x49, 0x6, 0x24, 0x5c, 0xc2, 0xd3, 0xac, 0x62, 0x91, 0x95, 0xe4, 0x79]
  ++ [0xe7, 0xc8, 0x37, 0x6d, 0x8d, 0xd5, 0x4e, 0xa9, 0x6c, 0x56, 0xf4, 0xea, 0x65, 0x7a, 0xae, 0x8]
  ++ [0xba, 0x78, 0x25, 0x2e, 0x1c, 0xa6, 0xb4, 0xc6, 0xe8, 0xdd, 0x74, 0x1f, 0x4b, 0xbd, 0x8b, 0x8a]
  ++ [0x70, 0x3e, 0xb5, 0x66, 0x48, 0x3, 0xf6, 0xe, 0x61, 0x35, 0x57, 0xb9, 0x86, 0xc1, 0x1d, 0x9e]
  ++ [0xe1, 0xf8, 0x98, 0x11, 0x69, 0xd9, 0x8e, 0x94, 0x9b, 0x1e, 0x87, 0xe9, 0xce, 0x55, 0x28, 0xdf]
  ++ [0x8c, 0xa1, 0x89, 0xd, 0xbf, 0xe6, 0x42, 0x68, 0x41, 0x99, 0x2d, 0xf, 0xb0, 0x54, 0xbb, 0x16]

/-- The substitution of one byte. -/
def subByte (b : Byte) : Byte := BitVec.ofNat 8 (aesSbox.getD b.toNat 0)

/-- The inverse substitution of one byte. -/
def invSubByte (b : Byte) : Byte := BitVec.ofNat 8 (aesSbox.idxOf b.toNat)

/-- Multiplication by x in the AES field. -/
def xtime (b : Byte) : Byte := if b.msb then (b <<< 1) ^^^ 0x1b else b <<< 1

/-- Multiplication in the AES field. -/
def gmul (a b : Byte) : Byte :=
  ((List.range 8).foldl (fun st i =>
    (xtime st.1, if bitOf b.toNat i then st.2 ^^^ st.1 else st.2)) (a, (0 : Byte))).2

/-- The bytes of two lists, XORed. -/
def xorBytes (a b : List Byte) : List Byte := List.zipWith (fun x y => x ^^^ y) a b

/-- One word of the AES-256 key schedule, newest word first. -/
def aesKeyStep (ws : List (List Byte)) (i : Nat) : List (List Byte) :=
  let prev := ws.headD []
  let t :=
    if i % 8 = 0 then
      xorBytes ((prev.drop 1 ++ prev.take 1).map subByte) [BitVec.ofNat 8 (2 ^ (i / 8 - 1)), 0, 0, 0]
    else if i % 8 = 4 then prev.map subByte
    else prev
  xorBytes (ws.getD 7 []) t :: ws

/-- The fifteen round keys of a 32-byte key. -/
def aesRoundKeys (key : List Byte) : List (List Byte) :=
  let ws := ((List.range 52).foldl (fun ws i => aesKeyStep ws (i + 8))
    ((List.range 8).map (fun i => slice key (4 * i) 4)).reverse).reverse
  (List.range 15).map (fun r => (slice ws (4 * r) 4).flatten)

/-- Row shift by table: byte `i` of the result is byte `aesShift[i]` of the state. -/
def aesShift : List Nat := [0, 5, 10, 15, 4, 9, 14, 3, 8, 13, 2, 7, 12, 1, 6, 11]
/-- The inverse row shift. -/
def aesUnshift : List Nat := [0, 13, 10, 7, 4, 1, 14, 11, 8, 5, 2, 15, 12, 9, 6, 3]

/-- The bytes of a state rearranged. -/
def aesPerm (t : List Nat) (st : List Byte) : List Byte := t.map (fun i => st.getD i 0)

/-- A column mix with the given first matrix row. -/
def aesMix (row : List Byte) (st : List Byte) : List Byte :=
  (List.range 16).map (fun i =>
    (List.range 4).foldl (fun acc j =>
      acc ^^^ gmul (st.getD (i / 4 * 4 + j) 0) (row.getD ((j + 4 - i % 4) % 4) 0)) 0)

/-- AES-256 encryption of one 16-byte block. -/
def aesEncrypt (key blk : List Byte) : List Byte :=
  let ks := aesRoundKeys key
  let mid := (List.range 13).foldl (fun st r =>
    xorBytes (aesMix [2, 3, 1, 1] (aesPerm aesShift (st.map subByte))) (ks.getD (r + 1) []))
    (xorBytes blk (ks.getD 0 []))
  xorBytes (aesPerm aesShift (mid.map subByte)) (ks.getD 14 [])

/-- AES-256 decryption of one 16-byte block. -/
def aesDecrypt (key blk : List Byte) : List Byte :=
  let ks := aesRoundKeys key
  let mid := (List.range 13).foldl (fun st r =>
    aesMix [14, 11, 13, 9] (xorBytes ((aesPerm aesUnshift st).map invSubByte) (ks.getD (13 - r) [])))
    (xorBytes blk (ks.getD 14 []))
  xorBytes ((aesPerm aesUnshift mid).map invSubByte) (ks.getD 0 [])

/-- The tweak of block `j` of a data unit: the encrypted unit number times x^j (IEEE 1619). -/
def xtsTweak (key2 : List Byte) (unit j : Nat) : Nat :=
  (List.range j).foldl (fun t _ =>
    if 2 ^ 128 ≤ t * 2 then (t * 2 % 2 ^ 128) ^^^ 0x87 else t * 2)
    (leNat (aesEncrypt key2 (leBytes 16 unit)))

/-- One 16-byte block encrypted under a 64-byte XTS key pair (R175). -/
def xtsEncryptBlock (pair : List Byte) (unit j : Nat) (blk : List Byte) : List Byte :=
  let t := leBytes 16 (xtsTweak (slice pair 32 32) unit j)
  xorBytes (aesEncrypt (pair.take 32) (xorBytes blk t)) t

/-- One 16-byte block decrypted under a 64-byte XTS key pair (R175). -/
def xtsDecryptBlock (pair : List Byte) (unit j : Nat) (blk : List Byte) : List Byte :=
  let t := leBytes 16 (xtsTweak (slice pair 32 32) unit j)
  xorBytes (aesDecrypt (pair.take 32) (xorBytes blk t)) t

/-- A product in the GHASH field, both factors and the result as 128-bit numbers. -/
def ghashMul (a b : Nat) : Nat :=
  ((List.range 128).foldl (fun st i =>
    (if bitOf a (127 - i) then st.1 ^^^ st.2 else st.1,
     if st.2 % 2 = 1 then (st.2 >>> 1) ^^^ (0xe1 <<< 120) else st.2 >>> 1)) (0, b)).1

/-- GHASH over whole 16-byte blocks. -/
def ghash (h : Nat) (bs : List Byte) : Nat :=
  (List.range (bs.length / 16)).foldl (fun y i => ghashMul (y ^^^ beNat (slice bs (16 * i) 16)) h) 0

/-- Bytes filled with zeros to a multiple of 16. -/
def pad16 (bs : List Byte) : List Byte := bs ++ List.replicate (roundUp bs.length 16 - bs.length) 0

/-- The GCM key stream applied to bytes, from counter 2 on. -/
def gcmCtr (key nonce bs : List Byte) : List Byte :=
  xorBytes bs ((List.range (ceilDiv bs.length 16)).map
    (fun i => aesEncrypt key (nonce ++ beBytes 4 (i + 2)))).flatten

/-- The GCM tag of a ciphertext with additional data. -/
def gcmTag (key nonce aad ct : List Byte) : List Byte :=
  let h := beNat (aesEncrypt key (List.replicate 16 0))
  let s := ghash h (pad16 aad ++ pad16 ct ++ beBytes 8 (8 * aad.length) ++ beBytes 8 (8 * ct.length))
  xorBytes (beBytes 16 s) (aesEncrypt key (nonce ++ beBytes 4 1))

end Sys2Proof.Machine
end

