-- ==== Sys2Proof/Machine/Mem.lean ====
section
/-!
DEFINITION. Sys2Proof/Machine/Mem.lean: byte-addressed storage (scratchpads, the die memories, hub
memory, the drive). A memory is a list of (address, byte) pairs in one canonical form: addresses
strictly rising and no entry equal to what an unlisted address reads as, so equal memories are equal
data. DESIGN CHOICE (log 3): the spec gives no contents for memory that nothing has written, and an
unlisted byte reads as zero.
-/
namespace Sys2Proof.Machine

/-- A memory in canonical form. -/
abbrev Mem := List Host.Cell

/-- What an address that no entry lists reads as. DESIGN CHOICE (log 3), unsafe. -/
def Mem.unlisted : Byte := 0

/-- The canonical form: addresses strictly rising, no entry equal to an unlisted byte. -/
def Mem.wf (m : Mem) : Bool :=
  match m with
  | [] => true
  | (_, b) :: [] => b != Mem.unlisted
  | (a, b) :: (a', b') :: rest =>
    b != Mem.unlisted && decide (a < a') && Mem.wf ((a', b') :: rest)

/-- The byte at one address. -/
def Mem.byte (m : Mem) (a : Nat) : Byte := SMap.getD Mem.unlisted m a

/-- Walks a memory whose addresses rise, reading `n` bytes from `a`. -/
def Mem.walk (m : Mem) (a : Nat) : Nat → List Byte
  | 0 => []
  | n + 1 =>
    match m with
    | [] => List.replicate (n + 1) Mem.unlisted
    | (k, b) :: rest =>
      if k = a then b :: Mem.walk rest (a + 1) n
      else Mem.unlisted :: Mem.walk ((k, b) :: rest) (a + 1) n

/-- `n` bytes from address `a` on. -/
def Mem.read (m : Mem) (a n : Nat) : List Byte :=
  Mem.walk (m.filter (fun e => decide (a ≤ e.1) && decide (e.1 < a + n))) a n

/-- The entries that a run of bytes from `a` on needs. -/
def Mem.cells (a : Nat) : List Byte → Mem
  | [] => []
  | b :: rest => if b = Mem.unlisted then Mem.cells (a + 1) rest else (a, b) :: Mem.cells (a + 1) rest

/-- `m` with the bytes `bs` stored from address `a` on. Keeps the canonical form. -/
def Mem.write (m : Mem) (a : Nat) (bs : List Byte) : Mem :=
  m.filter (fun e => decide (e.1 < a)) ++ Mem.cells a bs
    ++ m.filter (fun e => decide (a + bs.length ≤ e.1))

/-- `m` with those of the bytes that are given stored from `a` on, the others kept. -/
def Mem.writeSome (m : Mem) (a : Nat) (bs : List (Option Byte)) : Mem :=
  let old := Mem.read m a bs.length
  Mem.write m a ((bs.zip old).map (fun e => e.1.getD e.2))

/-- `m` with `n` bytes from `a` on zero. -/
def Mem.zero (m : Mem) (a n : Nat) : Mem :=
  m.filter (fun e => decide (e.1 < a) || decide (a + n ≤ e.1))

/-- The entries in `n` bytes from `a` on, moved to start at `b`. -/
def Mem.window (m : Mem) (a n b : Nat) : Mem :=
  (m.filter (fun e => decide (a ≤ e.1) && decide (e.1 < a + n))).map (fun e => (e.1 - a + b, e.2))

/-- `m` with the range of `n` bytes from `b` on replaced by the entries `cs`, which lie in it. -/
def Mem.splice (m : Mem) (b n : Nat) (cs : Mem) : Mem :=
  m.filter (fun e => decide (e.1 < b)) ++ cs ++ m.filter (fun e => decide (b + n ≤ e.1))

/-- A little-endian number of `n` bytes at `a`. -/
def Mem.num (m : Mem) (a n : Nat) : Nat := leNat (Mem.read m a n)

end Sys2Proof.Machine
end

