-- ==== Sys2Proof/Machine/FabricState.lean ====
section
/-!
DEFINITION. Sys2Proof/Machine/FabricState.lean: the plain data of the Lath links (R342 to R369), the routing table
(R358) and the plumb plane (R26 to R42).
-/
namespace Sys2Proof.Machine

/-- A fault record (R81). -/
structure FaultRec where
  stamp : Nat
  step : Nat
  module : Nat
  die : Nat
  tile : Nat
  unit : Nat
  code : Nat
  secondary : Bool
  object : Nat
  record : Nat
  digest : Nat
  deriving DecidableEq, Repr

/-- The link states (R349). -/
inductive LinkState where
  | down | training | hello | active | duplicate | disabled
  deriving DecidableEq, Repr

/-- The code of a link state (R349). -/
def LinkState.code : LinkState → Nat
  | .down => 0 | .training => 1 | .hello => 2 | .active => 3 | .duplicate => 4 | .disabled => 5

/-- The time class of a link (R46). -/
inductive TimeClass where
  | pending | common | foreign
  deriving DecidableEq, Repr

/-- The code of a time class (R369). -/
def TimeClass.code : TimeClass → Nat
  | .pending => 0 | .common => 1 | .foreign => 2

/-- A flit in the replay buffer: when it was last sent and how often it was resent (R346). -/
structure Sent where
  flit : Flit
  sentAt : Nat
  resends : Nat := 0
  /-- The next send is a resend already asked for. -/
  due : Bool := false
  deriving DecidableEq, Repr

/-- A flit waiting in the scheduled queue: the send point it takes, its ready cycle, its partition (R324, R362). -/
structure QFlit where
  point : Nat
  ready : Nat
  part : Nat
  flit : Flit
  /-- The Lath grant of its partition and the issue that sent it (R324). -/
  grant : Nat := 2 ^ 64 - 1
  id : Nat := 0
  deriving DecidableEq, Repr

/-- A hello's contents (R353), with the stamp at which they were recorded. -/
structure Hello where
  number : Nat := 0
  numbered : Bool := false
  quiescing : Bool := false
  link : Nat := 0
  variantB : Bool := false
  serial : Nat := 0
  idHash : Nat := 0
  firmware : Nat := 0
  stamp : Nat := 0
  deriving DecidableEq, Repr

/-- The Plumb states (R33). -/
inductive PlumbState where
  | unlocked | acquiring | locked | holdover | fenced | localTime
  deriving DecidableEq, Repr

/-- The code of a Plumb state (R33). -/
def PlumbState.code : PlumbState → Nat
  | .unlocked => 0 | .acquiring => 1 | .locked => 2 | .holdover => 3 | .fenced => 4 | .localTime => 5

/-- The Plumb state a code names. Codes 6 and 7 are not assigned (R33): the model reads them as LOCAL, which makes the link
foreign (log 80). -/
def plumbOf : Nat → PlumbState
  | 0 => .unlocked | 1 => .acquiring | 2 => .locked | 3 => .holdover | 4 => .fenced | _ => .localTime

/-- What the partner's latest timing flit said, and when (R29). -/
structure PartnerTime where
  frame : Nat
  hop : Nat
  state : PlumbState
  deadline : Nat
  at_ : Nat
  deriving DecidableEq, Repr

/-- One Lath link. -/
structure Link where
  state : LinkState := .down
  /-- 0 none, 1 width 1, 2 width 2, 3 width 4 (R369). -/
  width : Nat := 0
  rate112 : Bool := false
  lanes : Nat := 0
  /-- The operator's width limit (R367): 0 none, 1 width 1, 2 width 2. -/
  limit : Nat := 0
  delay : Nat := 0
  timeClass : TimeClass := .pending
  degraded : Bool := false
  errors : Nat := 0
  resends : Nat := 0
  lost : Nat := 0
  misaddressed : Nat := 0
  unroutable : Nat := 0
  /-- Failing flits in the frame `crcFrame` (R366). -/
  crcFrame : Nat := 0
  crcCount : Nat := 0
  hello : Option Hello := none
  /-- The last hello received, which outlives a retrain (R369). -/
  lastHello : Hello := {}
  /-- Signal is lost and the link enters DOWN at the next frame boundary (R365). -/
  noSignal : Bool := false
  /-- The partner's Ack of this side's hello has come (R353). -/
  helloAcked : Bool := false
  helloSeq : Option Nat := none
  helloFrame : Option Nat := none
  /-- Lanes with signal; the rung of the ladder in use; lanes excluded; every rung has failed (R350). -/
  signal : Nat := 0
  rung : Nat := 0
  excluded : Nat := 0
  ladderFailed : Bool := false
  /-- When the running attempt or wait began, and whether it is the wait after a failed attempt (R350). -/
  since : Nat := 0
  waiting : Bool := false
  /-- The tick after the latest loss beyond replay (R381). -/
  lostAt : Option Nat := none
  partner : Option PartnerTime := none
  /-- The next sequence number sent, the next expected, those skipped and not yet come, those owed a Nak (R346). -/
  txSeq : Nat := 0
  rxNext : Nat := 0
  rxMissing : List Nat := []
  rxOwed : List Nat := []
  replay : List Sent := []
  sched : List QFlit := []
  best : List Flit := []
  /-- Loss flits waiting (R346). -/
  lossQ : List Flit := []
  /-- Send points that scheduled flits have taken, each with the partition that took it (R362, R337). -/
  taken : List (Nat × Nat) := []
  /-- Fault records already sent on this link (R348). -/
  noticed : List FaultRec := []
  /-- The latest flit sent: the link's output. -/
  out : Option Flit := none
  /-- The plug in the link's cage: its CMIS power class in tenths of a watt, and whether it is powered (R469). -/
  plugPower : Option Nat := none
  plugPowered : Bool := false
  deriving DecidableEq, Repr

/-- A routing entry (R358). -/
structure Route where
  valid : Bool := false
  altValid : Bool := false
  hops : Nat := 0
  primary : Nat := 0
  alternate : Nat := 0
  deriving DecidableEq, Repr

/-- One source of time as the module measures it (R27 to R36). -/
structure TimeSource where
  /-- Good consecutive frames towards a lock (R35). -/
  good : Nat := 0
  /-- Consecutive frames with a phase error above 2 cy, and consecutive frames missing or bad (R36). -/
  far : Nat := 0
  missing : Nat := 0
  /-- The frame number last carried, when it came and how many consecutive valid frames it makes. -/
  frame : Nat := 0
  lastAt : Option Nat := none
  /-- The last phase error, in eighths of a cycle. -/
  err : Int := 0
  deriving DecidableEq, Repr

/-- The Plumb plane (R26 to R42). -/
structure Plumb where
  state : PlumbState := .unlocked
  /-- The source: a link number, 64 for the connector, 127 for none (R407). -/
  source : Nat := 127
  hop : Nat := 15
  deadline : Nat := 0
  /-- The loss has been seen and HOLDOVER begins at the next frame boundary (R36). -/
  losing : Bool := false
  /-- The source frame that is being acquired. -/
  src : TimeSource := {}
  connector : TimeSource := {}
  /-- The source that `src` measures while another is sought (R31, R38), in the code of `source`. -/
  cand : Nat := 127
  /-- Sources found in HOLDOVER that do not agree: not used until the module has fenced (R38). -/
  barred : List Nat := []
  /-- The module acquires after a fence (R41). -/
  wasFenced : Bool := false
  /-- Frame numbers before and after the latest relock from FENCED (R41), and the fence's stamp (R40). -/
  lastFence : Nat := 0
  relocks : List (Nat × Nat) := []
  deriving DecidableEq, Repr

end Sys2Proof.Machine
end

