-- ==== Sys2Proof/Machine/ServeState.lean ====
section
/-!
DEFINITION. Sys2Proof/Machine/ServeState.lean: the plain data of serving: Request Table entries (R272), budget counters
(R292), planned steps (R276 to R280), pages (R275), expert versions (R286) and results (R311 to R315).
-/
namespace Sys2Proof.Machine

/-- The states of a request (R272). -/
inductive ReqState where
  | free | waiting | prefill | decode | parking | parked | summary | unparking | finished | expired
  deriving DecidableEq, Repr

/-- The code of a request state (R272). -/
def ReqState.code : ReqState → Nat
  | .free => 0 | .waiting => 1 | .prefill => 2 | .decode => 3 | .parking => 4 | .parked => 5 | .summary => 6
  | .unparking => 7 | .finished => 8 | .expired => 9

/-- A Request Table entry (R272) with what firmware keeps beside it. -/
structure Req where
  state : ReqState := .free
  deadline : Nat := 0
  counts : Nat := 0
  length : Nat := 0
  limit : Nat := 0
  remaining : Nat := 0
  /-- The job slot (R274). -/
  head : Nat := 0
  tenant : Nat := 0
  version : Nat := 0
  set : Nat := 0
  job : Nat := 0
  part : Nat := 0
  priority : Nat := 0
  summaryBit : Bool := false
  cancelled : Bool := false
  /-- It was cancelled where it was not running, and does not run again (R304). -/
  dropped : Bool := false
  held : Bool := false
  countsDie : Nat := 0
  admission : Nat := 0
  converse : Bool := false
  /-- The token identifiers of positions `base` on, as far as they are known. -/
  tokens : List Nat := []
  /-- The position of the first token listed: M after a resumption from a summary (R283). -/
  base : Nat := 0
  /-- The pages of the sequence, block by block (R274). -/
  pages : List Nat := []
  /-- The park lifetime asked for, in mt (R281). -/
  ttl : Nat := 0
  /-- The stamp at which the lifetime of PARKED or SUMMARY ends (R281, R282). -/
  lifeEnd : Option Nat := none
  /-- Park places by block, as moves complete (R281). -/
  places : SMap Nat := []
  /-- Blocks still to move in PARKING or UNPARKING. -/
  moving : List Nat := []
  /-- A summary is being formed (R281, R282), into this place. -/
  sumPlace : Option Nat := none
  summarising : Bool := false
  /-- REQ_RESUME has released the entry, which joins at a later plan (R276, R283). -/
  released : Bool := false
  /-- Leaves are done: the references of the sequence are dropped (R276). -/
  left : Bool := false
  /-- The sequence has yielded no token since admission or resumption (R314). -/
  first : Bool := true
  /-- The last step planned with a row of the entry, and the last step whose record lists one (R273). -/
  lastPlanned : Option Nat := none
  /-- The stamp at which an entry that was not running entered FINISHED (R273, R304). -/
  doneAt : Nat := 0
  lastListed : Option Nat := none
  deriving DecidableEq, Repr

/-- A budget counter (R292) with its tenant's salt (R284). -/
structure Budget where
  balance : Int := 0
  cap : Nat := 0
  rate : Nat := 0
  part : Nat := 0
  enable : Bool := false
  consent : Bool := false
  salt : List Byte := []
  deriving DecidableEq, Repr

/-- A version of an expert set (R286, R287). -/
structure ExpertVersion where
  set : Nat
  version : Nat
  slots : List Nat
  /-- Tier-2 window offset of the weights. -/
  weights : Nat
  /-- The stamp at which the weights were all copied; the tick boundary after it puts the version in place. -/
  copiedAt : Option Nat := none
  inPlace : Bool := false
  retiring : Bool := false
  deriving DecidableEq, Repr

/-- A row of a planned step (R279). -/
structure PlanRow where
  entry : Nat
  slot : Nat
  position : Nat
  tokens : Nat
  harvest : Bool := false
  discard : Bool := false
  prefill : Bool := false
  summary : Bool := false
  tenant : Nat := 0
  counts : Nat := 0
  countsDie : Nat := 0
  binding : List Nat := []
  /-- The row was cancelled before its step was planned, or its sequence had finished (R76, R304). -/
  finished : Bool := false
  deriving DecidableEq, Repr

/-- A page move (R279, R280) and the entry and block it serves. -/
structure Move where
  kind : Nat
  page : Nat
  place : Nat
  entry : Nat
  block : Nat
  deriving DecidableEq, Repr

/-- A planned step (R276 to R279). -/
structure StepPlan where
  step : Nat
  start : Nat
  frames : Nat
  cls : Nat
  split : Nat
  rows : List PlanRow
  moves : List Move
  held : Nat := 0
  place : Option Nat := none
  training : Bool := false
  /-- The batch description as the image reads it in the last frame of the step before (R279). -/
  sent : List Byte := []
  deriving DecidableEq, Repr

/-- A record waiting to be posted (R313): its plan, its stamps, its rows of 16 bytes, the positions charged. -/
structure EndedStep where
  step : Nat
  start : Nat
  stop : Nat
  cls : Nat
  held : Nat
  place : Nat
  charged : Nat
  rows : List (List Byte)
  entries : List Nat
  deriving DecidableEq, Repr

/-- A posted record not yet released (R291, R315). -/
structure Posted where
  step : Nat
  place : Nat
  bytes : Nat
  entries : List Nat
  deriving DecidableEq, Repr

/-- What a serving job keeps (R269 to R291, R298 to R301, R311 to R315). -/
structure Serve where
  /-- The result area: places, byte offset in the partition's result region, bytes of a place (R311). -/
  places : Nat := 0
  base : Nat := 0
  placeBytes : Nat := 0
  /-- The serving policy word (R298). -/
  policy : Nat := 0
  /-- Reference counts of pages in use (R275). -/
  refs : SMap Nat := []
  /-- Cached pages, the earliest first (R275). -/
  cached : List Nat := []
  /-- The prefix index: hash and page (R285). -/
  index : List (List Byte × Nat) := []
  /-- Steps planned and not ended, the earliest first. -/
  plans : List StepPlan := []
  /-- Steps begun, for the periods of R204. -/
  begun : Nat := 0
  ended : List EndedStep := []
  posted : List Posted := []
  newest : Option Nat := none
  usedPlaces : List Nat := []
  split : Nat := 0
  /-- The nearest split and for how many tick boundaries in a row (R289). -/
  nearest : Nat := 0
  nearTicks : Nat := 0
  /-- Consecutive pressed and calm ticks (R300, R301), and the pressure list. -/
  pressed : Nat := 0
  calm : Nat := 0
  pressure : List Nat := []
  /-- The sequences that the latest tick boundary found pressed (R299). -/
  pressedSet : List Nat := []
  /-- The pauses and the resumes of this tick have been made (R300, R301). -/
  pauseDone : Bool := false
  resumeDone : Bool := false
  parkUsed : List Nat := []
  sumUsed : List Nat := []
  versions : List ExpertVersion := []
  /-- The last version number given to each set. -/
  lastVersion : SMap Nat := []
  /-- The last serving step planned had no rows (R330). -/
  emptyPlan : Bool := false
  deriving DecidableEq, Repr

end Sys2Proof.Machine
end

