-- ==== Sys2Proof/Machine/JobState.lean ====
section
/-!
DEFINITION. Sys2Proof/Machine/JobState.lean: the plain data of images, of partitions and of a job's step: sync
objects, buckets, carry queues, receives, faults and the update state.
-/
namespace Sys2Proof.Machine

/-- One section of a loaded image (R59). -/
structure Section where
  type : Nat
  body : Nat
  flags : Nat
  data : List Byte
  deriving DecidableEq, Repr

/-- A loaded image (R58 to R61): its header bytes, its sections, its digest. -/
structure Image where
  part : Nat
  handle : Nat
  header : List Byte
  sections : List Section
  digest : List Byte
  deriving DecidableEq, Repr

/-- The states of a partition (R317). -/
inductive PartState where
  | free | open_ | sealed | closing
  deriving DecidableEq, Repr

/-- The code of a partition state. -/
def PartState.code : PartState → Nat
  | .free => 0 | .open_ => 1 | .sealed => 2 | .closing => 3

/-- A window: base and length in GiB (R173). -/
structure Window where
  base : Nat := 0
  len : Nat := 0
  deriving DecidableEq, Repr

/-- A prefix index that a partition keeps once its job has gone (R285, log 103): the image and body whose page pool it names, its
hashes with their pages, and the cached pages, the earliest first. -/
structure PrefixIndex where
  digest : List Byte
  body : Nat
  index : List (List Byte × Nat)
  cached : List Nat
  deriving DecidableEq, Repr

/-- A partition (R316, R317, R322, R173, R175). -/
structure Part where
  state : PartState := .free
  pooled : Bool := false
  privileged : Bool := false
  sliceLen : Nat := 0
  tiles : Nat := 0
  /-- Windows by 2 × die + tier, those enabled. -/
  windows : SMap Window := []
  /-- Grants: tier 1, tier 2, die links, Lath (R322). -/
  grant1 : Nat := 0
  grant2 : Nat := 0
  grantDie : Nat := 0
  grantLath : Nat := 0
  /-- The key pair (R175). -/
  keys : List Byte := []
  /-- Prefix indexes whose job has gone (R285). -/
  prefixes : List PrefixIndex := []
  /-- The tiles and windows of the stored record where a die lost at start-up leaves the partition fewer (R442). -/
  whole : Option (Nat × SMap Window) := none
  deriving DecidableEq, Repr

/-- An ownership entry (R248). -/
structure OwnEntry where
  part : Nat
  quota : Nat
  base : Nat
  length : Nat
  deriving DecidableEq, Repr

/-- A Screed packet: its header fields (R252) and its payload as (offset, value) pairs, padding dropped. -/
structure Packet where
  job : Nat
  bucket : Nat
  payload : Nat := 0
  sat : Bool := false
  step : Nat := 0
  count : Nat := 0
  nan : Nat := 0
  module : Nat := 0
  die : Nat := 0
  tile : Nat := 0
  part : Nat := 0
  exponent : Nat := 0
  attempt : Nat := 0
  controller : Nat := 0
  vals : List (Nat × Int) := []
  /-- The stamp at which it came to the home's carry queue (R372). -/
  arrived : Nat := 0
  deriving DecidableEq, Repr

/-- A memory controller's state: error record (R170), ownership table (R248), foreign count (R249), carry
queue (R260), device temperature band (R167). -/
structure Ctl where
  lastUncorrectable : Nat := 0
  /-- The stamps of the last eight uncorrectable errors, the latest counted first (R383). -/
  recent : List Nat := []
  deviceFixes : Nat := 0
  linkFixes : Nat := 0
  scrubFixes : Nat := 0
  uncorrectable : Nat := 0
  own : SMap OwnEntry := []
  foreign : Nat := 0
  carry : List Packet := []
  hot : Bool := false
  deriving DecidableEq, Repr

/-- A fate record (R264). -/
structure Fate where
  step : Nat
  fate : Nat
  bucket : Nat
  module : Nat
  die : Nat
  tile : Nat
  part : Nat
  deriving DecidableEq, Repr

/-- A sync object in the running step (R73, R74). -/
structure SyncObj where
  count : Nat := 0
  /-- The beat has been taken, and whether a barrier fired at it. -/
  beaten : Bool := false
  fired : Bool := false
  deriving DecidableEq, Repr

/-- What a home gathers for one bucket in a step (R257, R261). -/
structure BucketRun where
  nan : Nat := 0
  sat : Bool := false
  packets : Nat := 0
  carried : Nat := 0
  exponent : Option Int := none
  closed : Bool := false
  peak : Int := -128
  sent : Bool := false
  deriving DecidableEq, Repr

/-- A close word that has landed (R263). -/
structure CloseWord where
  bucket : Nat
  step : Nat
  nan : Nat
  packets : Nat
  carried : Nat
  sat : Bool
  peak : Int
  deriving DecidableEq, Repr

/-- A reduction summary in the making (R268). -/
structure RedSum where
  accepted : Nat := 0
  carried : Nat := 0
  dropped : Nat := 0
  nan : Nat := 0
  closes : Nat := 0
  selected : Nat := 0
  padding : Nat := 0
  clips : Nat := 0
  foreign : Nat := 0
  deriving DecidableEq, Repr

/-- One use of a receive entry (R347). -/
structure Recv where
  id : Nat
  job : Nat
  unit : Nat
  entry : Nat
  tile : Nat
  address : Nat
  delivery : Nat
  /-- Flits that have come, by flit index, and those of them whose data has landed in scratchpad. -/
  got : SMap (List Byte) := []
  landed : List Nat := []
  units : Nat
  lossSeen : Bool := false
  error : Bool := false
  done : Bool := false
  deriving DecidableEq, Repr

/-- A step of a job in progress. -/
structure StepRun where
  number : Nat
  /-- The stamp word of its first cycle, and its length in frames. -/
  start : Nat
  frames : Nat
  cls : Nat := 0
  update : Bool := false
  faults : List FaultRec := []
  listClosed : Bool := false
  abandoned : Bool := false
  outcome : Nat := 0
  /-- u and the set selector at the first cycle (R238). -/
  count0 : Nat := 0
  selector0 : Bool := false
  homes : SMap BucketRun := []
  fates : List Fate := []
  words : List CloseWord := []
  red : RedSum := {}
  /-- Carry queues of the homes' controllers before the step's closes (R267), and whether the commit beat has freed the places of
  what those closes consumed (R260). -/
  queues : SMap (List Packet) := []
  freed : Bool := false
  recvs : List Recv := []
  /-- Flits that came before their receive was issued: unit, entry, index, payload; none marks a loss flit. -/
  early : List (Nat × Nat × Nat × Option (List Byte)) := []
  /-- The control word and the batch description of the step (R279, R374). -/
  control : List Byte := []
  description : List Byte := []
  /-- The module has sent its seal arrival (R391). -/
  sealed : Bool := false
  /-- Close words sent at Settle, by bucket (R263). -/
  sentWords : SMap (List Byte) := []
  /-- The outcome of an update step: 0 none, 1 committed, 2 skipped, 3 abandoned (R238). -/
  updated : Nat := 0
  /-- Fates that a replay takes from the original records, each with the step whose record holds it (R265). -/
  forced : List (Nat × Fate) := []
  /-- A packet that the original record treats as on time has come after its close beat (R398). -/
  diverged : Bool := false
  /-- The capture of the step, if it is a capture step (R371). -/
  capture : Bool := false
  deriving DecidableEq, Repr

/-- The last cycle of a step plus one. -/
def StepRun.stop (r : StepRun) : Nat := r.start + 65536 * r.frames

/-- An overlay (R328): tier-1 and tier-2 window offsets and bytes. -/
structure Overlay where
  tier1 : Nat
  tier2 : Nat
  len : Nat
  writable : Bool
  deriving DecidableEq, Repr

/-- A withdrawal under way (R334): the last step to run, if one is named, and the frame from which a boundary counts. -/
structure Stop where
  last : Option Nat := none
  frame : Nat
  /-- The job is stopped after the fence (R335); otherwise it is swapped out or only fenced. -/
  ends : Bool := true
  /-- The boundary has been reached: no further step issues. -/
  reached : Bool := false
  deriving DecidableEq, Repr

/-- A request for a capture that is pending (R373, R374). -/
structure CapAsk where
  number : Nat
  checkpoint : Bool
  /-- The step whose control word carries the capture flag, once one is written. -/
  step : Option Nat := none
  deriving DecidableEq, Repr

/-- One captured item: its part, item number, kind and bytes (R371, R376). -/
structure SnapItem where
  part : Nat
  item : Nat
  kind : Nat
  bytes : List Byte
  deriving DecidableEq, Repr

/-- A capture in progress (R371 to R377). -/
structure Capture where
  number : Nat
  checkpoint : Bool
  step : Nat
  stamp : Nat
  body : Nat
  items : List SnapItem
  deriving DecidableEq, Repr

/-- A step record and its report (R394, R395). -/
structure StepRecord where
  step : Nat
  outcome : Nat
  record : List Byte
  report : List Byte
  deriving DecidableEq, Repr

/-- A replay under way (R397 to R399). -/
structure ReplayRun where
  last : Nat
  trace : Nat
  excluded : List Nat
  /-- The original records with outcome 0, by step, and the packets accepted on time that their reports count (R268). -/
  source : SMap (List Byte)
  accepted : SMap Nat := []
  ran : Nat := 0
  /-- The trace area: tier-2 window offset, bytes on each die, entries formed on each die. -/
  area : Nat := 0
  areaLen : Nat := 0
  entries : SMap Nat := []
  deriving DecidableEq, Repr

/-- The life of a job (R84, R383 to R387): RUNNING, PAUSED, REMAPPING, HALTED, and fenced by a
withdrawal (R334). -/
inductive JobMode where
  | running | paused | remapping | halted | fenced
  deriving DecidableEq, Repr

/-- One job: its image and body, its binding, its counts and its running step. -/
structure Job where
  part : Nat
  handle : Nat
  body : Nat
  kind : Nat
  mode : JobMode := .running
  /-- Image tile to module-wide tile (R319). -/
  binding : SMap Nat := []
  resident : Bool := true
  /-- Frames of a step for kinds 1, 2, 5 and 6 (R63), and the notice bound N (R82). -/
  frames : Nat := 1
  notice : Nat := 1024
  /-- The number of the next step and the stamp at which it begins, where one is due. -/
  nextStep : Nat := 0
  nextAt : Option Nat := none
  attempt : Nat := 0
  u : Nat := 0
  selector : Bool := false
  skipped : Nat := 0
  beats : Nat := 0
  applyNan : Bool := false
  /-- NaN totals of the close words of completed steps since the previous update step, that step, and the steps abandoned and not run
  again, whose close words are discarded (R266, R267). -/
  nanSum : Nat := 0
  lastUpdate : Option Nat := none
  givenUp : List Nat := []
  /-- The current attempt was abandoned: its packets that arrive fail the attempt test (R267). -/
  voided : Bool := false
  sync : SMap SyncObj := []
  run : Option StepRun := none
  /-- An abandoned step whose fault list has not closed (R83). -/
  closing : Option StepRun := none
  /-- Faults outside any step, for the next step record (R476). -/
  outside : List FaultRec := []
  /-- Consecutive abandoned steps (R84). -/
  abandonRow : Nat := 0
  /-- JOB_START's block (R421): pin, replay, dust sheet offsets, overlay, first frame, checkpoint interval, buddies. -/
  pin : Bool := false
  replay : Bool := false
  dust : Option (List Nat) := none
  overlay : Option Overlay := none
  firstFrame : Nat := 0
  interval : Nat := 0
  buddies : List Nat := []
  /-- No module of the job that this module's hellos and tables do not name has a lower number (R271, log 33). -/
  lowest : Bool := true
  /-- The stamp at which the checkpoint interval ends (R379). -/
  intervalEnd : Option Nat := none
  /-- Restored and verified where JOB_START names a snapshot (R421). -/
  ready : Bool := true
  /-- The snapshot that a restore in progress reads (R388): the partition and the job that took it, its number, checkpoint
  or not. -/
  restoring : Option (Nat × Nat × Nat × Bool) := none
  /-- The snapshot that was restored into the job since it last resumed: partition, job, number (R392, R396). -/
  restored : Option (Nat × Nat × Nat) := none
  /-- Placement (R326 to R331): ever resident, the latest placement, blocked since, waiting since. -/
  everResident : Bool := false
  placedAt : Nat := 0
  blockedSince : Option Nat := none
  waitingSince : Option Nat := none
  /-- A pause asked for, from a frame on (R419, R460); a withdrawal under way (R334). -/
  pauseAsk : Option Nat := none
  stop : Option Stop := none
  /-- The context leaves its tiles at its first step boundary from a frame on (R332). -/
  leaving : Option Nat := none
  /-- Links that have left ACTIVE while the job ran: they send nothing further for it (R352). -/
  barred : List Nat := []
  /-- Snapshots (R373 to R378). -/
  capAsk : Option CapAsk := none
  capture : Option Capture := none
  snapNumber : Nat := 0
  /-- A checkpoint that is being copied to the drive: its catalogue entry, body and places (R379). -/
  copying : Option (CatEntry × Nat × List (Nat × List Byte)) := none
  /-- Control words written, by the step they govern (R374). -/
  control : SMap (List Byte) := []
  /-- The shadow of the abandoned step is sealed (R392). -/
  sealed : Bool := false
  /-- Step records with their reports, oldest first (R394, R395). -/
  records : List StepRecord := []
  /-- Ungated array lane products per frame of the last completed step, and rest (R460, R461); `restAsk` is the frame from
  which a rest decided takes effect. -/
  load : Nat × Nat := (0, 1)
  resting : Bool := false
  restUntil : Option Nat := none
  restAsk : Option Nat := none
  replayRun : Option ReplayRun := none
  serve : Option Serve := none
  deriving DecidableEq, Repr

end Sys2Proof.Machine
end

