-- ==== Sys2Proof/Machine/HostState.lean ====
section
/-!
DEFINITION. Sys2Proof/Machine/HostState.lean: the plain data of the management plane: windows and commands (R402 to
R418), management connections (R443 to R446), the hub store and the starts (R431 to R442), power and cooling (R457 to
R465), the health monitor (R381), the drive (R447) and context switches (R332).
-/
namespace Sys2Proof.Machine

/-- What a command names, for the order of R417. -/
inductive Key where
  | job (j : Nat)
  | entry (e : Nat)
  | part (p : Nat)
  | link (l : Nat)
  deriving DecidableEq, Repr

/-- A final reply (R414): status, result words and the stamp of the event that completed the command. -/
structure Reply where
  status : Nat
  stamp : Nat
  long : Bool := false
  more : Bool := false
  words : List Nat := []
  deriving DecidableEq, Repr

/-- A collected command (R412, R414). -/
structure Cmd where
  id : Nat
  opcode : Nat
  call : Call
  /-- The indirect block, as collected (R410). -/
  block : List Byte := []
  collected : Nat
  keys : List Key := []
  /-- The command has passed its checks and its work is under way; a command held back by R417 has not. -/
  started : Bool := false
  interim : Bool := false
  reply : Option Reply := none
  deriving DecidableEq, Repr

/-- One window block (R402, R408): its bytes and its registers. `shown` is what the registers show between two tick
boundaries (R403): WINDOW_STATUS and REPLY_HEAD. -/
structure Win where
  isOpen : Bool := false
  area : Mem := []
  expected : Nat := 1
  head : Nat := 0
  ack : Nat := 0
  shownStatus : Nat := 0
  shownHead : Nat := 0
  /-- The stamp at which the sequence word of a command slot was last written (R411). -/
  written : SMap Nat := []
  deriving DecidableEq, Repr

/-- A management connection (R443 to R446): its port, its window mask and the latest reply sent on it. -/
structure Conn where
  port : Nat
  mask : Nat
  out : List Byte := []
  deriving DecidableEq, Repr

/-- An access-list entry (R444). -/
structure Access where
  mask : Nat
  key : List Byte
  deriving DecidableEq, Repr

/-- The stages of the module's power and start (R7, R432 to R439, R453). -/
inductive Stage where
  /-- No feed, or turned off. -/
  | off
  /-- A start runs phase P0 to P8. -/
  | phase (n : Nat)
  /-- A warm start has failed; the next begins at P0 after 1 s (R438). -/
  | retry
  | bootStop
  | running
  | service
  deriving DecidableEq, Repr

/-- One entry of the start log (R438): kind, the end stamps of the phases that it ran (16 marks the beginning, 17 a failure), outcome (1
completed, 2 failed, 3 boot-ROM stop, 4 restarted for a firmware update, 5 cut off by the loss of power; the codes are log 131's). -/
structure StartEntry where
  cold : Bool
  ends : List (Nat × Nat)
  outcome : Nat
  deriving DecidableEq, Repr

/-- The running start (R436 to R438) and the operator's controls (R455). -/
structure Start where
  stage : Stage := .off
  cold : Bool := false
  ends : List (Nat × Nat) := []
  /-- The button: the stamp of the press, before cycle 0 where the clock has begun again since; held from before the feed was applied. -/
  pressedAt : Option Int := none
  heldFromFeed : Bool := false
  identify : Bool := false
  /-- The identify LED is steady: a quiesce request was taken (R455). -/
  requestLight : Bool := false
  /-- Stamp of the end of P0. -/
  p0End : Nat := 0
  /-- The topology hash computed at the end of P6 (R437). -/
  hash : List Byte := []
  /-- The firmware slot running: 0 A, 1 B; slot order reversed for this start (R441). -/
  slot : Nat := 0
  reversed : Bool := false
  updating : Bool := false
  deriving DecidableEq, Repr

/-- The hub store and the fuses that change (R431, R432), as its records read back (log 132). -/
structure Store where
  slotA : List Byte := []
  slotB : List Byte := []
  /-- The rollback counter, a thermometer code (R432). -/
  rollback : BitVec 64 := 0
  /-- The firmware version that wrote the stored records (R436). -/
  version : Option Nat := none
  repair : SMap Nat := []
  skim : SMap Nat := []
  /-- PHY training results: the device temperatures recorded, by controller number (R437). -/
  training : Option (SMap Nat) := none
  /-- The timing configuration: local time (R42). -/
  localTime : Bool := false
  topology : Option (List Byte) := none
  routes : SMap Route := []
  /-- Image-signing keys: 0 to 7 of the module; 16 × (p + 1) + index for partition p (R448). -/
  keys : SMap (List Byte) := []
  access : SMap Access := []
  starts : Nat := 0
  failedWarm : Nat := 0
  log : List StartEntry := []
  /-- Whether the firmware image on namespace 2 has been tried: its digest (R441). -/
  tried : Option (List Byte) := none
  /-- A repair map is stored (R436). -/
  mapped : Bool := false
  /-- The firmware slot that an update wrote and no start under it has completed (R441). -/
  trial : Option Nat := none
  deriving DecidableEq, Repr

/-- Feed, cooling and the governor (R457 to R465). -/
structure Power where
  millivolts : Nat := 0
  /-- The feed has been above 60 V, or below 44 V, since these stamps (R457). -/
  overSince : Option Nat := none
  underSince : Option Nat := none
  /-- The ENABLE contact is mated; the main path is closed (R458). -/
  enable : Bool := false
  path : Bool := false
  /-- The rails were turned off, and the feed has not fallen below 10 V since (R457). -/
  latched : Bool := false
  latchOpen : Bool := false
  /-- Coolant inlet and outlet in tenths of °C, flow in mL/min. -/
  inlet : Nat := 250
  outlet : Nat := 250
  flow : Nat := 4500
  /-- Inlet above 50 °C or flow below 3.0 L/min since this stamp (R464). -/
  hotSince : Option Nat := none
  stages : List Nat := []
  rails : List Nat := []
  /-- Compute-die junction temperatures in °C. -/
  dieTemps : List Nat := []
  /-- The last 1,000 power samples in mW, newest first; consecutive samples above 3.0 kW (R459, R461). -/
  samples : List Nat := []
  above : Nat := 0
  /-- Contexts resting, in the order in which they began (R461). -/
  resting : List Nat := []
  lowTicks : Nat := 0
  highTicks : Nat := 0
  /-- The governor's fence stands (R460). -/
  tripped : Bool := false
  deriving DecidableEq, Repr

/-- Totals at one tick boundary, for the risk score (R381). -/
structure HealthTick where
  tick : Nat
  fixes : Nat
  resends : Nat
  deriving DecidableEq, Repr

/-- The health monitor (R381, R382). -/
structure Health where
  risk : Nat := 0
  threshold : Nat := 128
  holdOff : Nat := 143052
  lastTrigger : Option Nat := none
  hist : List HealthTick := []
  /-- The last tick at which each alarm was active. -/
  alarms : SMap Nat := []
  deriving DecidableEq, Repr

/-- A quiesce (R453, R454). -/
inductive Quiesce where
  | none
  | orderly
  /-- Acts at the next frame boundary. -/
  | emergency
  /-- The fence stands and steps 3 and 4 follow. -/
  | closing
  | done
  deriving DecidableEq, Repr

/-- The NVMe drive (R447). -/
structure Drive where
  present : Bool := false
  /-- An NVMe shutdown notification has been sent to it since it was enumerated (R453). -/
  shutdown : Bool := false
  /-- Namespace 3 has been formatted for the module's use (R447). -/
  formatted : Bool := false
  ns1 : Mem := []
  ns2 : List Byte := []
  checkpoints : List Checkpoint := []
  frozen : List Frozen := []
  /-- The catalogue copy on namespace 3 (R379). -/
  catalogue : List CatEntry := []
  deriving DecidableEq, Repr

/-- A context switch (R332, R333). -/
structure Switch where
  part : Nat
  incoming : Nat
  outgoing : List Nat
  decided : Nat
  binding : SMap Nat
  /-- Bytes per frame of tier 1 and of tier 2 on each die, fixed at the decision (R332). -/
  rates : List (Nat × Nat) := []
  /-- The outgoing contexts have reached their boundaries and the phases run. -/
  begun : Bool := false
  /-- Phase start stamps by 8 × die + phase: Save 0, Write-back 1, Scrub 2, Fill 3, Restore 4. -/
  phases : SMap Nat := []
  /-- The phase each die runs, 5 when done. -/
  now_ : SMap Nat := []
  deriving DecidableEq, Repr

/-- What takes effect at a frame boundary that is fixed and to come (R50). -/
inductive FrameAct where
  /-- The governor's trip (R460). -/
  | trip
  /-- An emergency quiesce (R454); the start of the Quiescing hellos (R453). -/
  | emergency
  | quiescing
  /-- A compute die lost (R384); a second one (R387). -/
  | loss (die : Nat)
  | fail
  /-- Signal lost on a link (R365). -/
  | linkDown (link : Nat)
  /-- LINK_RETRAIN: its mask, action, limit and the command that waits (R367). -/
  | links (mask action limit id : Nat)
  /-- ROUTE_INSTALL: the first module, the entries and the command that waits (R358). -/
  | routes (first : Nat) (entries : List Nat) (id : Nat)
  /-- A withdrawal of a job that runs no step (R49, R334); what partition commands do once their jobs are fenced (R335). -/
  | fence (job : Nat)
  | parts
  /-- JOB_START's or JOB_RESUME's zeroes: a job's accumulators, and its residual stores too (R49, R244, R254). -/
  | zero (job : Nat) (residuals : Bool)
  /-- A context placed without anything to move takes its tiles (R49, R331); JOB_RESUME's late commit (R392); REQ_ADMIT's counts: job,
  die, offset, bytes zeroed, parameters (R305). -/
  | take (job : Nat)
  | lateCommit (job : Nat)
  | counts (job die off len : Nat) (params : List Byte)
  /-- An access entry in force from the reply that reports it: its index, window mask and client key (R450). -/
  | access (index mask : Nat) (key : List Byte)
  deriving DecidableEq, Repr

/-- One entry of the module area, held as plain fields: R172 stores it in tier 2 under the module key, which nothing outside reads
(log 95) (R40, R41, R47, R172, R382, R383, R392, R462). -/
inductive LogEntry where
  | fence (stamp : Nat)
  | relock (stamp before after : Nat)
  | governor (stamp action job mean : Nat)
  | risk (stamp : Nat) (points : List Nat)
  | lateCommit (stamp job : Nat)
  | dieLost (stamp die cause : Nat)
  | timeClass (stamp link cls : Nat)
  deriving DecidableEq, Repr

end Sys2Proof.Machine
end

