-- ==== Sys2Proof/Machine/Tile.lean ====
section
/-!
DEFINITION. Sys2Proof/Machine/Tile.lean: the storage of one tile (R16, R19): scratchpad, the Hawk and Float arrays,
the Skim unit, the vector engine, the row-state file of the fused row path, the scoreboard, the
stash directory, the memory base registers and the counts a step report takes from the tile. A
field of type SMap or List that lists nothing holds zeros.
-/
namespace Sys2Proof.Machine

/-- One column of one weight set: its 32 stationary weights and its fine-scale byte (R115). -/
structure WCol where
  w : List Int := []
  scale : Nat := 0
  deriving DecidableEq, Repr

/-- A class 0x03 accumulate that has reached its row (R121): the row as it stood before, and what was added. -/
structure LastAdd where
  row : Nat
  issued : Nat
  old : List Int
  start : Bool
  terms : List Int
  deriving DecidableEq, Repr

/-- One array (R114, R115, R134, R137). -/
structure ArrayState where
  /-- Accumulator rows: 480 signed slots each (R115). -/
  rows : SMap (List Int) := []
  /-- Weight sets 0 and 1, one entry for each contract column; none listed holds zeros. -/
  set0 : List WCol := []
  set1 : List WCol := []
  /-- Loads that are writing the set (R120). -/
  busy0 : Nat := 0
  busy1 : Nat := 0
  /-- The latest class 0x03 accumulate, for a class 0x04 issue before it that reaches the row after it (R122). -/
  last : Option LastAdd := none
  /-- The column mask (R137). -/
  mask : Nat := 0
  /-- Gated lane products of the step, and those not gated (R134, R461). -/
  gated : Nat := 0
  ungated : Nat := 0
  deriving DecidableEq, Repr

/-- A Skim activation entry (R140): 8 rows of 32 elements, 8 scale bytes, signedness. -/
structure SkimEntry where
  rows : List (List Int) := []
  scales : List Nat := []
  unsigned : Bool := false
  scaled : Bool := false
  deriving DecidableEq, Repr

/-- The Skim unit (R139 to R142). -/
structure SkimState where
  entries : SMap SkimEntry := []
  /-- The staging buffer: 32 columns of 32 weights expanded to S8, with their scale bytes. -/
  staging : List WCol := []
  /-- The held trailer: the base of its group and its 32 bytes. -/
  trailer : Option (Nat × List Byte) := none
  control : BitVec 64 := 0
  /-- Slots: element (s, c) of a slot stands at 16 s + c. -/
  slots : SMap (List Int) := []
  deriving DecidableEq, Repr

/-- The teacher part of a row (R186): anchors are none until an FSTAT or a merge gives one. -/
structure TeacherPart where
  tau : F32 := 0
  v : Int := 0
  first : Int := 0
  mode : Int := 0
  mRest : F32 := 0
  anchor : Option Int := none
  sum : Nat := 0
  selSum : Nat := 0
  void : Bool := false
  /-- The cut depth FSELECT fixes at its first issue (R201). -/
  depth : Option Int := none
  /-- Segments passed since FINIT, for FSTAT, FHIST and FSELECT (R188). -/
  statCur : Nat := 0
  histCur : Nat := 0
  selCur : Nat := 0
  deriving DecidableEq, Repr

/-- A student part of a row (R186). -/
structure StudentPart where
  cKl : F32 := 0
  cCe : F32 := 0
  label : Int := 0
  exclude : Bool := false
  anchorB : Option Int := none
  sumB : Nat := 0
  sumBK : Nat := 0
  anchorC : Option Int := none
  sumC : Nat := 0
  labelLogit : F32 := 0
  labelSeen : Bool := false
  void : Bool := false
  statCur : Nat := 0
  gradCur : Nat := 0
  /-- q_rest and rho, fixed at the row's first FGRAD (R195). -/
  rest : Option (F32 × F32) := none
  deriving DecidableEq, Repr

/-- A loss part of a row: X and P_K with 45 fraction bits (R186). -/
structure LossPart where
  x : Int := 0
  pk : Nat := 0
  deriving DecidableEq, Repr

/-- One row of the row-state file (R186). -/
structure RowState where
  teacher : TeacherPart := {}
  students : SMap StudentPart := []
  losses : SMap LossPart := []
  hist : SMap Nat := []
  deriving DecidableEq, Repr

/-- A scoreboard entry (R68). -/
inductive Entry where
  | empty
  | pending
  | ready
  deriving DecidableEq, Repr

/-- A number for the state of an entry. -/
def Entry.code : Entry → Nat
  | .empty => 0 | .pending => 1 | .ready => 2

/-- A tile's stash plan for the step (R223): first unit, length in units, keep boundary. -/
structure StashPlan where
  base : Nat
  units : Nat
  keep : Nat
  deriving DecidableEq, Repr

/-- A stash directory entry (R221): the first unit of the kept put, its conversion code, whether
every scale byte is zero. -/
structure StashEntry where
  start : Nat
  code : Nat
  zero : Bool
  deriving DecidableEq, Repr

/-- The stash of a tile (R158, R219 to R224). -/
structure StashState where
  plan : Option StashPlan := none
  dir : SMap StashEntry := []
  occupied : Nat := 0
  kept : Nat := 0
  placed : Nat := 0
  overflow : Nat := 0
  deriving DecidableEq, Repr

/-- What a tile keeps for one send in a step (R255, R256). -/
structure SendRun where
  started : Bool := false
  nan : Nat := 0
  sat : Bool := false
  cut : Nat := 33
  listed : Nat := 0
  deriving DecidableEq, Repr

/-- A distillation summary in the making (R210). -/
structure DistSum where
  kl : Int := 0
  ce : Int := 0
  rows : Nat := 0
  void : Nat := 0
  excluded : Nat := 0
  deriving DecidableEq, Repr

/-- One tile. -/
structure Tile where
  /-- The job whose step the tile runs, by job identifier. -/
  job : Option Nat := none
  /-- The sequencer's place: the record of the tile's program that is next (R64, R67). -/
  pos : Nat := 0
  scratch : Mem := []
  hawk : ArrayState := {}
  float : ArrayState := {}
  /-- The pair buffer: the bytes of the segment it holds (R124). -/
  pair : List Byte := []
  /-- The cycle of Hawk's latest fill, which a fill of Float in that cycle yields to (R124). -/
  pairHawk : Option Nat := none
  skim : SkimState := {}
  /-- Vector registers: 128 lanes each (R147). -/
  vregs : SMap (List F32) := []
  /-- Predicate registers p1 to p7, 128 bits each (R147). -/
  preds : SMap Nat := []
  bases : SMap (BitVec 64) := []
  rows : SMap RowState := []
  score : SMap Entry := []
  stash : StashState := {}
  sum : ArithSum := {}
  distil : SMap DistSum := []
  /-- Window misses of the step (R160). -/
  misses : Nat := 0
  /-- Accesses not performed for want of a grant (R323). -/
  regMisses : Nat := 0
  census : SMap Nat := []
  sends : SMap SendRun := []
  /-- Issues in each phase, and array issues among them (R241). -/
  issues : SMap Nat := []
  arrIssues : SMap Nat := []
  deriving DecidableEq, Repr

/-- An array of a tile. -/
def Tile.arr (t : Tile) : Arr → ArrayState
  | .hawk => t.hawk
  | .float => t.float

/-- A tile with one array replaced. -/
def Tile.setArr (t : Tile) (a : Arr) (x : ArrayState) : Tile :=
  match a with
  | .hawk => { t with hawk := x }
  | .float => { t with float := x }

/-- The clears of the first cycle of a step (R68, R110, R115, R124, R134, R137, R139, R159, R186, R222):
scratchpad and accumulator store keep their contents. -/
def Tile.clearStep (t : Tile) (job : Nat) (plan : Option StashPlan) : Tile :=
  { job := some job, scratch := t.scratch,
    hawk := { rows := t.hawk.rows }, float := { rows := t.float.rows },
    stash := { plan := plan } }

/-- `n` scratchpad bytes from unit `u` (R154). -/
def Tile.bytes (t : Tile) (u n : Nat) : List Byte := Mem.read t.scratch (32 * u) n

/-- The last scratchpad byte plus one (R154). -/
def scratchEnd : Nat := 786432 * 32

/-- Bytes stored in scratchpad, those given only, none beyond its end (R154, R155). -/
def Tile.store (t : Tile) (addr : Nat) (bs : List (Option Byte)) : Tile :=
  { t with scratch := Mem.writeSome t.scratch addr (bs.take (scratchEnd - addr)) }

/-- A vector register's 128 lanes (R139: zero where nothing is listed). -/
def Tile.vreg (t : Tile) (r : Nat) : List F32 := fitTo 0 128 (SMap.getD [] t.vregs r)

/-- A predicate register: p0 reads as all ones (R147). -/
def Tile.pred (t : Tile) (p : Nat) : Nat :=
  if p = 0 then 2 ^ 128 - 1 else SMap.getD 0 t.preds p

/-- An accumulator row's 480 slots (R115). -/
def ArrayState.row (a : ArrayState) (r : Nat) : List Int := fitTo 0 480 (SMap.getD [] a.rows r)

/-- A weight set's column (R115). -/
def ArrayState.wcol (a : ArrayState) (set j : Nat) : WCol :=
  (if set = 0 then a.set0 else a.set1).getD j {}

end Sys2Proof.Machine
end

