-- ==== Sys2Proof/Machine/Op.lean ====
section
/-!
DEFINITION. Sys2Proof/Machine/Op.lean: the plain data of operations in flight. An issue leaves micro-operations on
an event list, each with the cycle and the phase at which it takes effect.
-/
namespace Sys2Proof.Machine

/-- What a memory access does with what it moves (R160, R161). -/
structure MemJob where
  /-- Module address of the first byte, its die, its tier and its partition (R162, R171). -/
  addr : Nat
  die : Nat
  tier2 : Bool
  part : Nat
  len : Nat
  unit : Nat
  code : Nat := 0
  fpMem : Bool := false
  exponent : Int := 0
  /-- The access is performed: it lies in the window and in the grant (R160, R323). -/
  live : Bool := true
  deriving DecidableEq, Repr

/-- The effect of one micro-operation. -/
inductive Act where
  /-- Completion of an issue: the set entry becomes READY (R69). -/
  | complete (entry : Option Nat)
  /-- The releases of a record, after every check of its cycle, and its set entry, after every release (R69). -/
  | release (entries : List Nat)
  | promise (entry : Nat)
  /-- A weight load begins to write, and ends writing, a weight set (R120). -/
  | weightsBusy (a : Arr) (set : Nat)
  | setWeights (a : Arr) (set : Nat) (cols : List WCol)
  /-- A pair-buffer fill (R124) and the line read of an activation (R121). -/
  | fill (a : Arr) (unit : Nat) (f : Fmt)
  | readLine (a : Arr) (desc : BitVec 48) (block : Bool) (mask : Nat)
  /-- An activation reads its weights (R120), then adds its terms to its row (R122). -/
  | readWeights (a : Arr) (set row : Nat) (start block : Bool) (line : List Int) (scale factor mask : Nat)
  | addRow (a : Arr) (row : Nat) (start block : Bool) (terms : List Int)
  /-- Register loads (R156). -/
  | setMask (a : Arr) (v : Nat)
  | setEntry (i : Nat) (e : SkimEntry)
  | setControl (w : BitVec 64)
  | setBase (i : Nat) (w : BitVec 64)
  /-- Register results of the vector engine and of loads (R149). -/
  | setLanes (r : Nat) (lanes : List (Option F32))
  | setPred (p : Nat) (bits : List (Option Bool))
  /-- A scratchpad write at a byte address (R155). -/
  | write (addr : Nat) (bytes : List (Option Byte))
  /-- A drain hook reads d and schedules its write (R152). -/
  | hook (a : Arr) (hook unit : Nat) (ys : List FRes) (mask : Nat)
  /-- A Skim issue at its controller (R142, R143). -/
  | skim (desc : BitVec 48) (entry : SkimEntry) (control : BitVec 64)
  /-- A memory access at its controller (R160 to R164). -/
  | memRead (m : MemJob)
  | memWrite (m : MemJob) (bytes : List Byte)
  /-- What a read or a take has read lands (R155, R161, R221): the bytes as read, the side of a take that converts to FP32, and
  whether they come from the stash. -/
  | readLand (m : MemJob) (raw : List Byte) (take : Option Bool) (kept : Bool)
  /-- The data of a write becomes visible (R71). -/
  | memStore (m : MemJob) (bytes : List Byte)
  /-- The events of a conversion, counted at its completion (R106, R110). -/
  | sum (fl : FFlags) (conv : Option ConvStatus)
  /-- A put at its arrival cycle and a take (R217 to R221). -/
  | put (m : MemJob) (offset : Nat) (bytes : List Byte) (scales : List Nat) (square : Bool) (keepable : Bool)
  | take (m : MemJob) (offset : Nat) (toFp : Bool)
  /-- A residual access of a Screed part (R477): the read at + 24 and the write at + 200. -/
  | residRead (send part kind : Nat) (payload : List Byte) (nan : Nat)
  | residWrite (addr : Nat) (bytes : List Byte) (hdr : Nat) (hbytes : List Byte) (live : Bool)
  /-- A Screed packet reaches its home on this module (R251). -/
  | packet (p : Packet) (die : Nat)
  /-- A die-to-die transfer's data reaches its receive, by way of a die or straight to its own (R364). -/
  | dieLand (job entry : Nat) (bytes : List Byte) (target mid : Nat)
  /-- The first link cycle that two sends of a plan claim (R80, R364): SLOT_COLLISION. -/
  | clash (die object : Nat)
  /-- What has reached a receive lands (R155), and its delivery cycle (R347, R363). -/
  | landing (recv : Nat)
  | deliver (recv : Nat) (entry : Option Nat)
  /-- An arrive counts at its sync object (R475). -/
  | arrive (job object amount die : Nat)
  /-- An issue of a repeat at its own cycle (R65). -/
  | issue (a : Arr) (cls : Nat) (r : IssueRec)
  /-- A slot claim of a pooled partition: the resource and the claims left (R324). -/
  | claim (res left grant : Nat) (tier2 : Bool) (planned : Nat) (next : Act)
  /-- What follows some cycles after an issue, counted with its delay (R324, R364). -/
  | cross (off : Nat) (next : Act)
  deriving DecidableEq, Repr


/-- One micro-operation in flight. Operations run in order of due cycle, then phase, then number. -/
structure Op where
  due : Nat
  phase : Nat
  seq : Nat
  /-- The issue it belongs to. -/
  id : Nat
  tile : Nat
  job : Nat
  unit : Nat
  record : Nat
  issued : Nat
  /-- The op class (R71). -/
  cls : Nat := 0
  status : MemStatus := .ok
  /-- The controller of a memory access. -/
  ctl : Option Nat := none
  /-- A check of the issue failed, and its results are unspecified (R67). -/
  spoiled : Bool := false
  act : Act
  deriving DecidableEq, Repr

/-- A write that has reached its controller (R83). -/
def Op.stores (o : Op) : Bool := match o.act with | .memStore _ _ => true | _ => false

end Sys2Proof.Machine
end

