-- ==== Sys2Proof/Machine/State.lean ====
section
/-!
DEFINITION. Sys2Proof/Machine/State.lean: the whole state of the module as plain data, the stops, and the state
after reset.
-/
namespace Sys2Proof.Machine

/-- Why a step stops with a fault. -/
inductive Fault where
  /-- An issue reads or writes scratchpad beyond unit 786,431 (R154), which R55 forbids and for which R57 gives
  no effect. Raised by the issue rows. Safe: the machine stops. -/
  | beyondScratchpad
  deriving DecidableEq, Repr

/-- Why a command has no meaning. -/
inductive Refusal where
  /-- The command's meaning is not written yet. Raised by exec's arms only. Safe. -/
  | notModelled (mnemonic : String)
  /-- The descriptor is an encoding not assigned (R119): an image that holds it is refused at IMAGE_LOAD, so no
  sequencer issues it. Raised by the issue rows. Safe. -/
  | unassigned
  deriving DecidableEq, Repr

/-- The module. -/
structure State where
  /-- Commands that are waiting, the first in front. -/
  pending : List Instr := []
  /-- The clock: the stamp word, frame × 65,536 + cycle (R52). -/
  now : Nat := 0
  /-- The model's own counters: free values drawn, issues, micro-operations, commands collected. -/
  draws : Nat := 0
  issues : Nat := 0
  opSeq : Nat := 0
  cmdSeq : Nat := 0
  inflight : List Op := []
  /-- What takes effect at frame boundaries to come, the earliest first (R50). -/
  acts : List (Nat × FrameAct) := []
  /-- The last management-tick boundary that MANAGEMENT_TICK has carried out (R413). -/
  tickAt : Option Nat := none
  /-- Slots that pooled claims have taken: resource and cycle (R324). -/
  taken : List (Nat × Nat) := []
  tiles : SMap Tile := []
  tier1 : SMap Mem := []
  /-- Tier 2 as ciphertext (R175). -/
  tier2 : SMap Mem := []
  hub : Mem := []
  ctls : SMap Ctl := []
  links : SMap Link := []
  routes : SMap Route := []
  parts : SMap Part := []
  images : List Image := []
  jobs : SMap Job := []
  plumb : Plumb := {}
  /-- Compute dies lost (R383, R434), and the module has FAILED (R387). -/
  lostDies : List Nat := []
  failed : Bool := false
  /-- The stamp of the latest die loss: no commit beat fires from then to the next frame boundary (R384). -/
  lossAt : Option Nat := none
  /-- The module is an MXG-5020-B (R2). -/
  variantB : Bool := false
  number : Option Nat := none
  /-- The serial number in the fuses (R432), the head of the identity key's digest and the firmware version (R353). -/
  serial : Nat := 0
  idHash : Nat := 0
  firmware : Nat := 0
  /-- The digest of the firmware image that runs (R440). -/
  firmwareDigest : List Byte := []
  /-- A quiesce is in progress or done, or the module has FAILED: hellos carry Quiescing (R353, R387, R453). -/
  quiescing : Bool := false
  quiesce : Quiesce := .none
  /-- Best-effort flits delivered to hub firmware (R359). -/
  inbox : List Flit := []
  /-- The link that each best-effort message under way left on, by the link it came on (64 for hub firmware's own), its
  destination and its number (R359). -/
  messages : List ((Nat × Nat × Nat) × Nat) := []
  /-- Windows by number: 0 the operator's, p + 1 partition p's (R402). -/
  wins : SMap Win := []
  cmds : List Cmd := []
  /-- The tick boundary at which packets were last collected and the window that collection has come to there (R412). -/
  passed : Option (Nat × Nat) := none
  /-- The global registers as they show (R403), by offset. -/
  regs : SMap Nat := []
  conns : SMap Conn := []
  /-- The last connection number given. -/
  connSeq : Nat := 0
  /-- Request Table, budget counters, the admission counter (R272, R292). -/
  requests : SMap Req := []
  budgets : SMap Budget := []
  admissions : Nat := 0
  store : Store := {}
  start : Start := {}
  power : Power := {}
  health : Health := {}
  drive : Drive := {}
  catalogue : List CatEntry := []
  /-- The parts that the latest snapshots sent to buddy modules (R375). -/
  sentParts : List SnapPart := []
  switches : List Switch := []
  /-- Switch records, newest first (R333, R428). -/
  switchLog : List Switch := []
  log : List LogEntry := []
  /-- Step records of jobs that have been stopped: partition, job, record (R394). -/
  kept : List (Nat × Nat × StepRecord) := []
  /-- The bytes of the module area that step records and reports may take (R394, log 20). -/
  recordRoom : Nat := 0
  /-- Tier-1 memory released and not yet zeroed: die, base, length, in GiB (R174). -/
  clearing : List (Nat × Nat × Nat) := []
  /-- The overlay range that each context filled last: die, tier-1 address, length, job (R328). -/
  fills : List (Nat × Nat × Nat × Nat) := []
  deriving DecidableEq, Repr

/-- The firmware version in a firmware image (R440). -/
def firmwareVersionOf (bs : List Byte) : Nat := leAt bs 4 4

/-- What a thermometer code counts: the fuses blown (R432). -/
def thermometer (w : BitVec 64) : Nat := ((List.range 64).filter (fun i => w.getLsbD i)).length

/-- A thermometer code raised to a count: fuses are only ever blown, and there are 64 of them (R432). -/
def burnTo (w : BitVec 64) (n : Nat) : BitVec 64 := w ||| BitVec.ofNat 64 (2 ^ min n 64 - 1)

/-- A firmware image in a slot or on namespace 2 (R440): its length. -/
def firmwareLength (bs : List Byte) : Nat := 320 + leAt bs 8 8

/-- Bits [255:192] of the SHA-256 of the public identity key, which is computed from the private key in the fuses (R353, R432). -/
def identityHead : Nat := beNat ((sha256 (publicKey Config.identityKey)).take 8)

/-- A link right after reset: DOWN, with the rates of nothing trained (R349, log 1). -/
def linkReset : Link := {}

/-- The operator's window right after reset: open, with its registers at their reset values (R408). -/
def operatorReset : Win := { isOpen := true, shownStatus := 2 ^ 32 + 2 ^ 31 + 15 * 2 ^ 27 }

/-- The global registers when the windows open (R13, R404 to R407, log 1): no link is up, five dies serve, the Plumb
plane is UNLOCKED. -/
def globalsReset (variantB : Bool) (serial firmware : Nat) : SMap Nat :=
  [(0x00, 2 ^ 56 + b2n variantB * 2 ^ 52 + firmware),
   (0x08, serial),
   (0x10, 480 * 2 ^ 54 + 32 * 2 ^ 48 + 512 * 2 ^ 38 + 8 * 2 ^ 34 + 128 * 2 ^ 26 + 24 * 2 ^ 20 + 60 * 2 ^ 13),
   (0x18, (if variantB then 24 else 36) * 2 ^ 56 + 20 * 2 ^ 51 + 64 * 2 ^ 43 + 20 * 2 ^ 38 + 128 * 2 ^ 30),
   (0x20, 15 * 2 ^ 12 + 127 * 2 ^ 2),
   (0x28, 0),
   (0x30, 128 * 2 ^ 48 + 31 * 2 ^ 41)]

/-- The module right after reset: the command windows open for the first time, after a start that has completed with
every die good, no link up and no lock yet (R13, R434, log 1). -/
def State.reset : State :=
  { variantB := Config.variantB
    serial := Config.serial.toNat
    idHash := identityHead
    firmware := firmwareVersionOf Config.firmware
    firmwareDigest := sha256 (Config.firmware.take (firmwareLength Config.firmware))
    wins := [(0, operatorReset)]
    regs := globalsReset Config.variantB Config.serial.toNat (firmwareVersionOf Config.firmware)
    start := { stage := .running, cold := true }
    store := { slotA := Config.firmware, rollback := Config.rollback, version := some (firmwareVersionOf Config.firmware),
               training := some [], mapped := true, topology := some [], starts := 1, log := [{ cold := true, ends := [], outcome := 1 }] }
    recordRoom := Config.recordRoom
    power := { millivolts := 52000, enable := true, path := true } }

end Sys2Proof.Machine
end

