-- ==== Sys2Proof/Machine/Ops.lean ====
section
/-!
DEFINITION. Sys2Proof/Machine/Ops.lean: the named operations over the state: tiles, jobs, links, memories, the clock,
operations in flight, free values, contract faults, slots and grants.
-/
namespace Sys2Proof.Machine

/-! ### Parts of the state -/

/-- A tile by its module-wide number (R20). -/
def State.tile (s : State) (i : Nat) : Tile := SMap.getD {} s.tiles i
/-- A tile replaced. -/
def State.setTile (s : State) (i : Nat) (t : Tile) : State := { s with tiles := SMap.set s.tiles i t }
/-- A tile changed. -/
def State.updTile (s : State) (i : Nat) (f : Tile → Tile) : State := s.setTile i (f (s.tile i))
/-- A job by its identifier. -/
def State.job (s : State) (j : Nat) : Option Job := SMap.find s.jobs j
/-- A job replaced. -/
def State.setJob (s : State) (j : Nat) (x : Job) : State := { s with jobs := SMap.set s.jobs j x }
/-- A job changed, where it exists. -/
def State.updJob (s : State) (j : Nat) (f : Job → Job) : State :=
  match s.job j with
  | some x => s.setJob j (f x)
  | none => s
/-- A job's running step changed, where there is one. -/
def State.updRun (s : State) (j : Nat) (f : StepRun → StepRun) : State :=
  s.updJob j (fun x => { x with run := x.run.map f })
/-- A link by its number. -/
def State.link (s : State) (l : Nat) : Link := SMap.getD {} s.links l
/-- A link changed. -/
def State.updLink (s : State) (l : Nat) (f : Link → Link) : State :=
  { s with links := SMap.set s.links l (f (s.link l)) }
/-- A controller: 0 to 19 HBM3E, 32 to 51 tier-2 packages, 64 to 67 hub packages (R170). -/
def State.ctl (s : State) (c : Nat) : Ctl := SMap.getD {} s.ctls c
/-- A controller changed. -/
def State.updCtl (s : State) (c : Nat) (f : Ctl → Ctl) : State :=
  { s with ctls := SMap.set s.ctls c (f (s.ctl c)) }
/-- A partition. -/
def State.part (s : State) (p : Nat) : Part := SMap.getD {} s.parts p
/-- A partition changed. -/
def State.updPart (s : State) (p : Nat) (f : Part → Part) : State :=
  { s with parts := SMap.set s.parts p (f (s.part p)) }

/-- A fresh free value (log 10), and the state that has drawn it. -/
def State.draw (s : State) : BitVec 64 × State := (Config.freeBits s.draws, { s with draws := s.draws + 1 })

/-- Free bytes (R67, R168, log 10). -/
def freeBytes (draws n : Nat) : List Byte :=
  (List.range n).map (fun i => (Config.freeBits (draws + i)).setWidth 8)

/-! ### The clock (R52) -/

/-- The frame of a stamp word. -/
def frameOf (t : Nat) : Nat := t / 65536
/-- The cycle of a stamp word within its frame. -/
def cycleOf (t : Nat) : Nat := t % 65536
/-- The first cycle of the next frame. -/
def nextFrame (t : Nat) : Nat := (t / 65536 + 1) * 65536
/-- The module number, zero where none is written (R354). -/
def State.moduleNumber (s : State) : Nat := s.number.getD 0

/-! ### Operations in flight -/

/-- The order of micro-operations: due cycle, phase, number. -/
def Op.before (a b : Op) : Bool :=
  decide (a.due < b.due) || (a.due == b.due &&
    (decide (a.phase < b.phase) || (a.phase == b.phase && decide (a.seq ≤ b.seq))))

/-- An operation put in its place. -/
def State.enqueue (s : State) (o : Op) : State := { s with inflight := insertBy Op.before o s.inflight }

/-- A micro-operation of the issue `o` put on the event list. -/
def State.emit (s : State) (o : Op) (due phase : Nat) (act : Act) : State :=
  { s.enqueue { o with due := due, phase := phase, seq := s.opSeq, act := act } with opSeq := s.opSeq + 1 }

/-- The controller of an issue's access, told to its micro-operations in flight. -/
def State.setOpCtl (s : State) (id c : Nat) : State :=
  { s with inflight := s.inflight.map (fun (x : Op) => if x.id = id then { x with ctl := some c } else x) }

/-- Phases within one cycle: results and completions come first, issues read what stands then, memory and
link events follow, and scratchpad writes come last in the order of R155. -/
def phaseResult : Nat := 0
/-- Issues of a repeat (R65). -/
def phaseIssue : Nat := 1
/-- The releases of the cycle's records, after all their checks, and then their set entries (R69). -/
def phaseRelease : Nat := 2
/-- Set entries. -/
def phaseSet : Nat := 3
/-- Pair-buffer fills, then line reads: after every issue of the cycle and before its writes (R124, R155). -/
def phaseFill : Nat := 4
/-- Line reads. -/
def phaseLine : Nat := 5
/-- Slot claims (R324). -/
def phaseClaim : Nat := 6
/-- Accesses at a controller and arrivals at a home. -/
def phaseMem : Nat := 7
/-- Landings (R155). -/
def phaseLand : Nat := 10
/-- Stores of unit 4 (R155). -/
def phaseStore : Nat := 11
/-- Drains of an array (R155). -/
def phaseDrain : Arr → Nat
  | .hawk => 12
  | .float => 13

/-! ### Images -/

/-- The image of a partition under a handle. -/
def State.image (s : State) (part handle : Nat) : Option Image :=
  s.images.find? (fun i => i.part == part && i.handle == handle)

/-- The data of a body's section of one type, if the body carries it. -/
def Image.section_ (i : Image) (body type : Nat) : Option (List Byte) :=
  (i.sections.find? (fun x => x.body == body && x.type == type)).map (fun x => x.data)

/-- The data of a body's constants of one kind (R179, R474). -/
def Image.constant (i : Image) (body kind : Nat) : Option (List Byte) :=
  (i.sections.find? (fun x => x.body == body && x.type == 10 && x.flags % 16 == kind)).map (fun x => x.data)

/-- A header field (R58). -/
def Image.field (i : Image) (off len : Nat) : Nat := leAt i.header off len

/-- The image's kind serves (R269). -/
def serves (kind : Nat) : Bool := kind == 3 || kind == 4

/-- The image of a job. -/
def State.jobImage (s : State) (j : Job) : Option Image := s.image j.part j.handle

/-- A section of a job's running body. -/
def State.jobSection (s : State) (j : Job) (type : Nat) : List Byte :=
  ((s.jobImage j).bind (fun i => i.section_ j.body type)).getD []

/-- A constant of a job's running body. -/
def State.jobConstant (s : State) (j : Job) (kind : Nat) : List Byte :=
  ((s.jobImage j).bind (fun i => i.constant j.body kind)).getD []

/-- Record `i` of a table of `size`-byte records that begins at `off`, as a number (R11). -/
def recordAt (bs : List Byte) (off size i : Nat) : Nat := leNat (slice bs (off + size * i) size)

/-- All records of a table of `n` records. -/
def recordsAt (bs : List Byte) (off size n : Nat) : List Nat := (List.range n).map (recordAt bs off size)

/-- The image tile bound to a module-wide tile of a job, the tile itself where none is (R319). -/
def Job.imageTile (j : Job) (tile : Nat) : Nat :=
  match j.binding.find? (fun e => e.2 == tile) with
  | some e => e.1
  | none => tile

/-- The module-wide tile bound to an image tile (R319). -/
def Job.tileOf (j : Job) (img : Nat) : Option Nat := SMap.find j.binding img

/-- The job's step in progress that has not reached its abandon boundary. -/
def Job.live (j : Job) : Option StepRun :=
  match j.run with
  | some r => if r.abandoned then none else some r
  | none => none

/-! ### Contract faults (R80 to R82, R476) -/

/-- The order of fault records and of events: stamp, module, die, tile (R54). -/
def FaultRec.before (a b : FaultRec) : Bool :=
  decide (a.stamp < b.stamp) || (a.stamp == b.stamp &&
    (decide (a.module < b.module) || (a.module == b.module &&
      (decide (a.die < b.die) || (a.die == b.die && decide (a.tile < b.tile))))))

/-- A fault list with one record more, kept in order, never twice; records equal in all four stand as they were raised, which is the
order of their local sequence numbers (R54). -/
def addFault (l : List FaultRec) (f : FaultRec) : List FaultRec :=
  if l.contains f then l else insertBy FaultRec.before f l

/-- Bits [255:192] of an image digest (R81). -/
def digestHead (d : List Byte) : Nat := beNat (d.take 8)

/-- The abandon boundary of a fault detected at `stamp` under the notice bound `n` (R82). -/
def boundaryOf (stamp n : Nat) : Nat :=
  if cycleOf stamp + n ≤ 65536 then nextFrame stamp else nextFrame stamp + 65536

/-- The abandon boundary that a step's faults fix, from the earliest of them (R82). -/
def StepRun.boundary (r : StepRun) (n : Nat) : Option Nat :=
  match r.faults with
  | [] => none
  | f :: _ => some (boundaryOf f.stamp n)

/-- Where a fault is detected (R476). -/
structure Where where
  die : Nat
  tile : Nat := 15
  unit : Nat
  object : Nat := 0
  record : Nat := 0
  deriving DecidableEq, Repr

/-- The compute dies two hops apart: not ring neighbours; the neighbours of a lost die reach each other through the
hub (R18, R71). -/
def twoHops (lost : List Nat) (a b : Nat) : Bool :=
  let near := (a + 1) % 5 == b || (b + 1) % 5 == a
  !near || lost.contains a || lost.contains b

/-- The stamp at which the notice of a fault detected on one die lands on another die of the module (R348): it leaves at cycle 0 of the
next send period, and a die between them passes it on at a later period's (log 130). -/
def noticeLands (lost : List Nat) (stamp a b : Nat) : Nat :=
  let one := (stamp / 1024 + 1) * 1024 + Config.dieNotice
  if twoHops lost a b then ceilDiv one 1024 * 1024 + Config.dieNotice else one

/-- A notice of an earlier-stamped fault has landed on a die before a detection there (R81, R348). -/
def State.noticedAt (s : State) (die stamp : Nat) (f : FaultRec) : Bool :=
  decide (f.stamp < stamp) &&
    (f.module != s.moduleNumber || (f.die != die && decide (noticeLands s.lostDies f.stamp f.die die ≤ stamp)))

/-- Raises a contract fault of a job at a stamp (R80, R81, R476). In a step it joins the step's list; outside any
step it waits for the next step record. -/
def State.raise (s : State) (jid code stamp : Nat) (w : Where) : State :=
  match s.job jid with
  | none => s
  | some j =>
    let dig := match s.jobImage j with | some i => digestHead i.digest | none => 0
    let mk (step : Nat) (sec : Bool) : FaultRec :=
      { stamp := stamp, step := step, module := s.moduleNumber, die := w.die, tile := w.tile, unit := w.unit,
        code := code, secondary := sec, object := w.object, record := w.record, digest := dig }
    match j.live with
    | some r =>
      let sec := r.faults.any (s.noticedAt w.die stamp)
      s.setJob jid { j with run := some { r with faults := addFault r.faults (mk r.number sec) } }
    | none => s.setJob jid { j with outside := addFault j.outside (mk (2 ^ 48 - 1) false) }

/-- The die of a module-wide tile (R20). -/
def dieOf (tile : Nat) : Nat := tile / 12
/-- The controller beside a tile, by its number on the die (R162). -/
def besideOf (tile : Nat) : Nat := tile % 12 / 3

/-- Where a tile's own issue faults: its image tile is named (R319, R476). -/
def Job.atTile (j : Job) (tile unit object record : Nat) : Where :=
  { die := dieOf (j.imageTile tile), tile := j.imageTile tile % 12, unit := unit, object := object, record := record }

/-! ### Memory (R162, R171 to R175) -/

/-- Bytes in one GiB. -/
def gib : Nat := 2 ^ 30
/-- Bytes of one HBM3E stack (R162). -/
def stackBytes (variantB : Bool) : Nat := if variantB then 24 * gib else 36 * gib
/-- Bytes of one tier-2 package (R162). -/
def packageBytes : Nat := 64 * gib
/-- The module address of a die address (R171). -/
def moduleAddr (die : Nat) (tier2 : Bool) (a : Nat) : Nat := ((if tier2 then 8 else 2) + die) * 2 ^ 40 + a

/-- Tier-2 bytes as the controller moves them: AES-256-XTS by 16-byte blocks under a key pair (R175). -/
def xtsBytes (enc : Bool) (keys : List Byte) (addr : Nat) (bs : List Byte) : List Byte :=
  if keys.isEmpty then bs
  else (List.range (bs.length / 16)).flatMap (fun i =>
    let a := addr + 16 * i
    let blk := slice bs (16 * i) 16
    if enc then xtsEncryptBlock keys (a / 4096) (a % 4096 / 16) blk
    else xtsDecryptBlock keys (a / 4096) (a % 4096 / 16) blk)

/-- Bytes of a die's tier 1 or tier 2 at a die address, tier 2 decrypted under a key pair. -/
def State.readDie (s : State) (die : Nat) (tier2 : Bool) (keys : List Byte) (a n : Nat) : List Byte :=
  if tier2 then xtsBytes false keys (moduleAddr die true a) (Mem.read (SMap.getD [] s.tier2 die) a n)
  else Mem.read (SMap.getD [] s.tier1 die) a n

/-- Stores bytes in a die's tier 1 or tier 2, tier 2 encrypted. -/
def State.writeDie (s : State) (die : Nat) (tier2 : Bool) (keys : List Byte) (a : Nat) (bs : List Byte) : State :=
  if tier2 then
    { s with tier2 := SMap.upd [] s.tier2 die (fun m => Mem.write m a (xtsBytes true keys (moduleAddr die true a) bs)) }
  else { s with tier1 := SMap.upd [] s.tier1 die (fun m => Mem.write m a bs) }

/-- A partition's window on a die and tier (R173). -/
def Part.window (p : Part) (die : Nat) (tier2 : Bool) : Window := SMap.getD {} p.windows (2 * die + b2n tier2)

/-- The die address of a window offset, where the access lies in the window (R160). -/
def Part.windowAddr (p : Part) (die : Nat) (tier2 : Bool) (off len : Nat) : Option Nat :=
  let w := p.window die tier2
  if off + len ≤ w.len * gib then some (w.base * gib + off) else none

/-- A trace entry of a replay that traces at `level` or above (R399): formed on its die, written while the trace area has
room. Its low 48 bits are a free function of what the event shows (log 127): 0 a check, 1 an issue, 2 a landing, 3 a beat,
4 a close. -/
def State.trace (s : State) (jid level die tile unit index kind : Nat) (shown : List Nat) : State :=
  match s.job jid with
  | none => s
  | some j =>
    match j.replayRun, j.run with
    | some x, some r =>
      if x.trace < level then s
      else
        let n := SMap.getD 0 x.entries die
        let s1 := s.setJob jid { j with replayRun := some { x with entries := SMap.set x.entries die (n + 1) } }
        let p := s.part j.part
        if 16 * (n + 1) ≤ x.areaLen then
          match p.windowAddr die true (x.area + 16 * n) 16 with
          | some a => s1.writeDie die true p.keys a (leBytes 16 (packMsb [(32, s.now - r.start), (6, tile), (4, unit), (6, 0),
              (32, index), (48, (Config.traceWord kind shown).toNat)]))
          | none => s1
        else s1
    | _, _ => s

/-- The number of the controller that holds a die address (R162, R170). -/
def State.ctlOf (s : State) (die : Nat) (tier2 : Bool) (a : Nat) : Nat :=
  if tier2 then 32 + 4 * die + a / packageBytes else 4 * die + a / stackBytes s.variantB

/-! ### Slots and grants (R163, R164, R322 to R324) -/

/-- A cycle is a usable slot of its controller (R163, R164). -/
def usable (tier2 : Bool) (c : Nat) : Bool :=
  let k := c % 1024
  if tier2 then decide (k ≤ 830) && k % 2 == 0 else decide (k ≤ 887)

/-- A grant covers a cycle (R322). -/
def granted (grant c : Nat) : Bool := bitOf grant (c % 1024 / 16)

/-- The slots of an access: n from its arrival cycle on, within one period (R163, R164). -/
def slotsFrom (tier2 : Bool) (arrival n : Nat) : List Nat :=
  (List.range n).map (fun i => arrival + (if tier2 then 2 * i else i))

/-- Slots an access of some bytes needs (R163, R164). -/
def slotCount (tier2 : Bool) (bytes : Nat) : Nat :=
  if tier2 then ceilDiv (ceilDiv bytes 32) 2 else ceilDiv (ceilDiv bytes 32) 17

/-- Every slot of an access is usable, in one period and in the grant (R163, R164, R323). -/
def slotsGranted (grant : Nat) (tier2 : Bool) (arrival n : Nat) : Bool :=
  (slotsFrom tier2 arrival n).all (fun c => usable tier2 c && granted grant c && c / 1024 == arrival / 1024)

/-- The number a slot claim is ordered by: partition first, then arrival (R324). -/
def claimSeq (part arrival seq : Nat) : Nat := (part * 2 ^ 80 + arrival) * 2 ^ 40 + seq

/-- Puts an access on the event list at its arrival cycle: directly, or slot by slot where the partition is
pooled (R324). In a strict partition two accesses that claim one slot are both performed, each at its own cycle (log 116). -/
def State.access (s : State) (o : Op) (p : Part) (pid res grant : Nat) (tier2 : Bool) (arrival n : Nat) : State :=
  if p.pooled then
    s.enqueue { o with due := arrival, phase := phaseClaim, seq := claimSeq pid arrival s.opSeq,
                       act := .claim res n grant tier2 (arrival + (n - 1) * (if tier2 then 2 else 1)) o.act }
  else s.emit o arrival phaseMem o.act

/-- An access whose effect takes its place at its arrival cycle whatever its slots do: in a pooled partition its claims only move
what completes later (R122, R142, R219, R324). -/
def State.accessInOrder (s : State) (o : Op) (p : Part) (pid res grant : Nat) (tier2 : Bool) (arrival n : Nat) : State :=
  let s1 := if p.pooled then s.access { o with act := .sum {} none } p pid res grant tier2 arrival n else s
  s1.emit o arrival phaseMem o.act

/-! ### Memory errors (R168 to R170) -/

/-- A controller counts an error that it detects (R168, R170). -/
def countError (c : Ctl) (at_ : Nat) : MemStatus → Ctl
  | .ok => c
  | .device => { c with deviceFixes := satNat 32 (c.deviceFixes + 1) }
  | .link => { c with linkFixes := satNat 32 (c.linkFixes + 1) }
  | .uncorrectable => { c with uncorrectable := satNat 16 (c.uncorrectable + 1), lastUncorrectable := at_, recent := (at_ :: c.recent).take 8 }

/-- One error found outside the scheduled accesses, by its controller (R168, R170): what scrub corrects counts as corrected by
scrub. -/
def countFound (s : State) (e : MemError) : State :=
  if e.ctl < 68 then
    s.updCtl e.ctl (fun c =>
      if e.scrub && (e.status == .device || e.status == .link) then { c with scrubFixes := satNat 32 (c.scrubFixes + 1) }
      else countError c (s.now - e.ago) e.status)
  else s

/-- The errors found, counted one by one. -/
def countAll (s : State) (es : List MemError) : State := es.foldl countFound s

/-- Some error that no layer corrects is among them (R169). -/
def anyLost (es : List MemError) : Bool := es.any (fun e => e.status == .uncorrectable)

/-- The errors that a controller access of a job outside its issue records has met: counted, and TRANSFER_ERROR raised for each that
no layer corrects (R168, R169, R476). -/
def raiseFound (s : State) (job : Nat) (errors : List MemError) : State :=
  (errors.filter (fun e => e.status == .uncorrectable)).foldl (fun (st : State) e =>
    st.raise job 0x05 st.now { die := if e.ctl < 20 then e.ctl / 4 else if e.ctl < 64 then (e.ctl - 32) / 4 else 7, unit := 5, object := e.ctl })
    (countAll s errors)

/-! ### Sticky flags -/

/-- Adds to a tile's arithmetic summary. -/
def State.addSum (s : State) (tile : Nat) (f : ArithSum → ArithSum) : State :=
  s.updTile tile (fun t => { t with sum := f t.sum })

end Sys2Proof.Machine
end

