-- ==== Sys2Proof/Machine/Trans.lean ====
section
/-!
DEFINITION. Sys2Proof/Machine/Trans.lean: the transcendental functions of class 0x22 (R109, R147, R150) and the
powers, logarithms and quotients of the fused row path (R113, R190 to R196). The exact value is
formed in fixed point with 400 fraction bits; where R109 allows 1 ulp the delivered number is a free
choice among those the bound allows (log 7), and where R113 allows 2^-28 of a term the error is free
within it (log 8).
-/
namespace Sys2Proof.Machine

/-- Fraction bits of the working fixed point. -/
def fxBits : Nat := 400
/-- One in the working fixed point. -/
def fxOne : Int := 2 ^ fxBits
/-- ln 2, to 400 fraction bits. -/
def fxLn2 : Int := 0xb17217f7d1cf79abc9e3b39803f2f6af40f343267298b62d8a0d175b8baafa2be7b876206debac98559552fb4afa1b10ed2e
/-- log2 e, to 400 fraction bits. -/
def fxLog2e : Int := 0x171547652b82fe1777d0ffda0d23a7d11d6aef551bad2b4b1164a2cd9a342648fbc3887eeaa2ed9ac49b25eeb82d7c167d521
/-- 2/sqrt(pi), to 400 fraction bits. -/
def fxErfScale : Int := 0x120dd750429b6d11ae3a914fed7fd8688281341d7587cea2e7342b06199cc416180eb39f0b24e1e2281806c12d98f35d77a3e

/-- The floor of m × 2^e in the working fixed point. -/
def fxOf (neg : Bool) (m : Nat) (e : Int) : Int :=
  let k := e + fxBits
  signed neg (m * 2 ^ k.toNat / 2 ^ (-k).toNat)

/-- A fixed-point product. -/
def fxMul (a b : Int) : Int := (a * b) / fxOne
/-- A fixed-point quotient. -/
def fxDiv (a b : Int) : Int := (a * fxOne) / b

/-- e^r for 0 ≤ r < 1, by its power series. -/
def fxExpSeries (r : Int) : Int :=
  ((List.range 110).foldl (fun st (i : Nat) =>
    let t := fxMul st.1 r / ((i : Int) + 1)
    (t, st.2 + t)) (fxOne, fxOne)).2

/-- e^x as a fixed-point number in [1, 2) and a power of two. -/
def fxExp (x : Int) : Int × Int :=
  let n := x / fxLn2
  (fxExpSeries (x - n * fxLn2), n)

/-- e^x as one fixed-point number, for x of small magnitude. -/
def fxExp1 (x : Int) : Int :=
  let r := fxExp x
  r.1 * 2 ^ r.2.toNat / 2 ^ (-r.2).toNat

/-- 2 atanh z for |z| ≤ 1/3. -/
def fxAtanh2 (z : Int) : Int :=
  let zz := fxMul z z
  2 * ((List.range 130).foldl (fun st (i : Nat) =>
    let t := fxMul st.1 zz
    (t, st.2 + t / (2 * (i : Int) + 3))) (z, z)).2

/-- ln of a positive number m × 2^e, m not zero. -/
def fxLn (m : Nat) (e : Int) : Int :=
  let k := Nat.log2 m
  let y := fxOf false m (-(k : Int))
  (e + k) * fxLn2 + fxAtanh2 (fxDiv (y - fxOne) (y + fxOne))

/-- erf x for 0 ≤ x < 6, by its power series. -/
def fxErf (x : Int) : Int :=
  let xx := fxMul x x
  fxMul fxErfScale ((List.range 330).foldl (fun st (i : Nat) =>
    let t := -(fxMul st.1 xx) / ((i : Int) + 1)
    (t, st.2 + t / (2 * (i : Int) + 3))) (x, x)).2

/-- One of the numbers within 1 ulp of a fixed-point value v × 2^k, v not exact: the sticky bit keeps
an inexact value from reading as exact. -/
def pickFx (code : Nat) (x : F32) (v : Int) (k : Int) : FRes :=
  fpPick code x (decide (v < 0)) (2 * v.natAbs + 1) 1 (k - fxBits - 1)

/-- An exact value within 1 ulp: the value itself or a neighbour (R109). -/
def pickExact (code : Nat) (x : F32) (neg : Bool) (m : Nat) (e : Int) : FRes := fpPick code x neg m 1 e

/-- e^v × 2^0 of a finite number, with the range ends taken first. -/
def expVal (code : Nat) (x : F32) (neg : Bool) (big : Bool) (v : Int) : FRes :=
  if big then
    (if neg then { bits := fpZero false, fl := { underflow := true } }
     else { bits := fpInf false, fl := { overflow := true } })
  else
    let r := fxExp v
    pickFx code x r.1 r.2

/-- A finite number is 2^8 or more in magnitude. -/
def isBig (m : Nat) (e : Int) : Bool := decide (8 < (Nat.log2 m : Int) + e)

/-- FEXP: e^A (R147). -/
def fexp (a : F32) : FRes :=
  let fl := fpIn a
  match fpRead a with
  | .nan => nanRes true fl
  | .inf s => { bits := if s then fpZero false else fpInf false, fl := fl }
  | .fin s m e =>
    let o := if m = 0 then pickExact 0x28 a false 1 0 else expVal 0x28 a s (isBig m e) (fxOf s m e)
    { o with fl := fl.or o.fl }

/-- FEXP2: 2^A (R147). -/
def fexp2 (a : F32) : FRes :=
  let fl := fpIn a
  match fpRead a with
  | .nan => nanRes true fl
  | .inf s => { bits := if s then fpZero false else fpInf false, fl := fl }
  | .fin s m e =>
    let v := fxOf s m e
    let o :=
      if m = 0 then pickExact 0x2D a false 1 0
      else if isBig m e then expVal 0x2D a s true 0
      else if v % fxOne = 0 then pickExact 0x2D a false 1 (v / fxOne)
      else
        let r := fxExp (fxMul (v % fxOne) fxLn2)
        pickFx 0x2D a r.1 (r.2 + v / fxOne)
    { o with fl := fl.or o.fl }

/-- FLOG and FLOG2: the special operands (R150), then the value given for a positive number. -/
def logWith (a : F32) (body : Nat → Int → FRes) : FRes :=
  let fl := fpIn a
  match fpRead a with
  | .nan => nanRes true fl
  | .inf s => if s then nanRes false fl else { bits := fpInf false, fl := fl }
  | .fin s m e =>
    if m = 0 then { bits := fpInf true, fl := { fl with divZero := true } }
    else if s then nanRes false fl
    else
      let o := body m e
      { o with fl := fl.or o.fl }

/-- FLOG: ln A (R147). -/
def flog (a : F32) : FRes :=
  logWith a (fun m e => if a = fpOne then { bits := fpZero false } else pickFx 0x29 a (fxLn m e) 0)

/-- FLOG2: log2 A (R147). -/
def flog2 (a : F32) : FRes :=
  logWith a (fun m e =>
    if a = fpOne then { bits := fpZero false }
    else if m = 2 ^ 23 then
      pickExact 0x2E a (decide (e + 23 < 0)) (e + 23).natAbs 0
    else pickFx 0x2E a (fxMul (fxLn m e) fxLog2e) 0)

/-- FTANH: tanh A (R147). -/
def ftanh (a : F32) : FRes :=
  let fl := fpIn a
  match fpRead a with
  | .nan => nanRes true fl
  | .inf s => { bits := signed32 s fpOne, fl := fl }
  | .fin s m e =>
    if m = 0 then { bits := fpZero s, fl := fl }
    else
      let v := if isBig m e then fxOne - 1
        else let t := fxExp1 (-2 * fxOf false m e); min (fxDiv (fxOne - t) (fxOne + t)) (fxOne - 1)
      let o := pickFx 0x2A a (if s then -v else v) 0
      { o with fl := fl.or o.fl }

/-- FSIG: 1/(1 + e^-A) (R147). -/
def fsig (a : F32) : FRes :=
  let fl := fpIn a
  match fpRead a with
  | .nan => nanRes true fl
  | .inf s => { bits := if s then fpZero false else fpOne, fl := fl }
  | .fin s m e =>
    let o :=
      if m = 0 then pickExact 0x2B a false 1 (-1)
      else if isBig m e then
        (if s then { bits := fpZero false, fl := { underflow := true } } else pickFx 0x2B a (fxOne - 1) 0)
      else
        -- for a negative operand e^A/(1 + e^A), so that the quotient keeps its relative precision
        let t := fxExp1 (-(fxOf false m e))
        pickFx 0x2B a (min (if s then fxDiv t (fxOne + t) else fxDiv fxOne (fxOne + t)) (fxOne - 1)) 0
    { o with fl := fl.or o.fl }

/-- FERF: erf A (R147). -/
def ferf (a : F32) : FRes :=
  let fl := fpIn a
  match fpRead a with
  | .nan => nanRes true fl
  | .inf s => { bits := signed32 s fpOne, fl := fl }
  | .fin s m e =>
    if m = 0 then { bits := fpZero s, fl := fl }
    else
      let x := if isBig m e then 6 * fxOne else fxOf false m e
      let v := if 6 * fxOne ≤ x then fxOne - 1 else min (fxErf x) (fxOne - 1)
      let o := pickFx 0x2C a (if s then -v else v) 0
      { o with fl := fl.or o.fl }

/-! ### The fused row path's numbers (R113, R190 to R196) -/

/-- A finite value as a fixed-point number; a non-finite one, which the spec leaves without a value where no FSTAT has seen it, as zero
(log 94). -/
def fxVal (x : F32) : Int :=
  match fpRead x with
  | .fin s m e => fxOf s m e
  | _ => 0

/-- The ceiling of z log2 e, from the exact product (R190). -/
def ceilLog2e (z : F32) : Int :=
  match fpRead z with
  | .fin s m e => if m = 0 then 0 else (fxMul (fxOf s m e) fxLog2e) / fxOne + 1
  | _ => 0

/-- The floor of 8 × (k - z log2 e), from the exact product (R192). -/
def histBin (k : Int) (z : F32) : Int :=
  match fpRead z with
  | .fin s m e =>
    if m = 0 then 8 * k else (8 * (k * fxOne - fxMul (fxOf s m e) fxLog2e)) / fxOne
  | _ => 0

/-- 2^(z log2 e - k), which is e^z over 2^k: a fixed-point number in [1, 2) and the power of two that it is multiplied by. -/
def powTerm (z : F32) (k : Int) : Int × Int :=
  let r := fxExp (fxVal z)
  (r.1, r.2 - k)

/-- The term as the path evaluates it: within 2^-28 of its exact value, relatively (R113, log 8). -/
def powTermNear (z : F32) (k : Int) : Int × Int :=
  let t := powTerm z k
  (t.1 + t.1 * clampInt (-(2 ^ 20)) (2 ^ 20) (Config.termPick z k) / 2 ^ 48, t.2)

/-- A fixed-point number to the nearest multiple of 2^-45, in units of 2^-45, ties to even (R113). -/
def fix45 (v : Int) : Int :=
  signed (decide (v < 0)) (rneDiv v.natAbs (2 ^ (fxBits - 45)))

/-- The term of z under the anchor k to the nearest multiple of 2^-45, in units of it (R113, R190). A sum has 64 bits (log 90), in
which a term of 2^64 such units or more leaves nothing. -/
def fixTerm (z : F32) (k : Int) : Nat :=
  let t := powTermNear z k
  if 500 < t.2 then 0 else (signed (decide (t.1 < 0)) (rneDiv (t.1.natAbs * 2 ^ t.2.toNat) (2 ^ (fxBits - 45 + (-t.2).toNat)))).toNat

/-- A fixed-point number rounded once to FP32 (R107). -/
def rneFx (v : Int) : FRes := fpRoundInt v (-(fxBits : Int))

/-- The quotient of a fixed-point number times a power of two and a sum with 45 fraction bits, rounded once to FP32. A sum is zero
only where merged lanes or an FCLOSE without statistics leave it so, and the spec states no quotient there (log 10). -/
def rneOver (v : Int × Int) (sum : Nat) : FRes :=
  if sum = 0 then { bits := Config.rowQuotient v.1 v.2 }
  else fpRound (decide (v.1 < 0)) v.1.natAbs sum (v.2 + 45 - (fxBits : Int))

/-- ln of a sum with 45 fraction bits. -/
def fxLnSum (sum : Nat) : Int := if sum = 0 then 0 else fxLn sum (-45)

end Sys2Proof.Machine
end

