-- ==== Sys2Proof/Machine/Array.lean ====
section
/-!
DEFINITION. Sys2Proof/Machine/Array.lean: Hawk and Float (R114 to R138): weight loads, activations, the pair buffer,
drains and drain hooks, each as what its issue leaves on the event list and what each event does.
-/
namespace Sys2Proof.Machine

/-! ### Weight loads (R117, R120) -/

/-- The 480 columns a weight group in scratchpad gives (R117, R120). -/
def loadColumns (f : Fmt) (turn : Bool) (bs : List Byte) : List WCol :=
  let trailer := bs.drop (groupBytes f)
  (List.range 15).flatMap (fun g =>
    let seg := slice bs (g * segBytes f) (segBytes f)
    let sc := segScales f seg
    (List.range 32).map (fun i =>
      { w := weightLine f seg trailer turn i, scale := if fmtScaled f then sc.getD i 0 else 128 }))

/-- A weight load (classes 0x01 and 0x02). -/
def issueWeights (s : State) (o : Op) (a : Arr) (cls : Nat) (d : Desc) : State :=
  match fmtOf (fld d 27 24) with
  | none => s
  | some f =>
    let cols := loadColumns f (fld d 22 22 == 1) ((s.tile o.tile).bytes (fld d 47 28) (groupSize f))
    let k := if cls = 1 then 0 else 2
    (s.emit o (o.issued + 13 + k) phaseResult (.weightsBusy a (fld d 23 23))).emit o (o.issued + 47 + k) phaseStore
      (.setWeights a (fld d 23 23) cols)

/-- A load begins to write a weight set (R120). -/
def ArrayState.markBusy (x : ArrayState) (set : Nat) : ArrayState :=
  if set = 0 then { x with busy0 := x.busy0 + 1 } else { x with busy1 := x.busy1 + 1 }

/-- A weight set written (R120). -/
def ArrayState.setCols (x : ArrayState) (set : Nat) (cols : List WCol) : ArrayState :=
  if set = 0 then { x with set0 := cols, busy0 := x.busy0 - 1 } else { x with set1 := cols, busy1 := x.busy1 - 1 }

/-! ### Activations (R121 to R124) -/

/-- An activation issue (classes 0x03 and 0x04): the fill and the line read of its cycle. -/
def issueActivation (s : State) (o : Op) (a : Arr) (cls : Nat) (d : Desc) : State :=
  let mask := if fld d 3 3 = 1 then ((s.tile o.tile).arr a).mask else 0
  let f := (fmtOf (fld d 9 6)).getD .s8
  let s1 := if fld d 15 15 = 1 then s.emit o o.issued phaseFill (.fill a (fld d 47 28) f) else s
  s1.emit o o.issued phaseLine (.readLine a d (cls == 4) mask)

/-- A pair-buffer fill: Float's is ignored in a cycle in which Hawk fills (R124). The fill replaces the whole buffer: what a read in a
longer format finds beyond the segment filled is zero (log 93). -/
def doFill (s : State) (o : Op) (a : Arr) (unit : Nat) (f : Fmt) : State :=
  let bs := if o.spoiled then freeBytes s.draws (segBytes f) else (s.tile o.tile).bytes unit (segBytes f)
  { s with draws := s.draws + (if o.spoiled then segBytes f else 0) }.updTile o.tile (fun t =>
    match a with
    | .hawk => { t with pair := bs, pairHawk := some o.issued }
    | .float => if t.pairHawk = some o.issued then t else { t with pair := bs })

/-- The line read of an activation; the weights are read 11 cycles after the issue (R120). -/
def doReadLine (s : State) (o : Op) (a : Arr) (d : Desc) (block : Bool) (mask : Nat) : State :=
  let t := s.tile o.tile
  let f := (fmtOf (fld d 9 6)).getD .s8
  let src := fld d 17 16
  let bs := if fld d 15 15 = 1 ∨ 2 ≤ src then t.pair else t.bytes (fld d 47 28) (segBytes f)
  let turn := src % 2 == 1
  let pass := fld d 5 4
  let line := (segLine f bs turn (fld d 14 10)).map (bytePass pass)
  let s1 := s.addSum o.tile (fun x => x.setTurnScale (turnScale f bs turn))
  s1.emit o (o.issued + 11) phaseResult
    (.readWeights a (fld d 19 19) (fld d 27 20) (fld d 18 18 == 1) block line (lineScale f bs turn (fld d 14 10))
      (if pass = 1 then 256 else 1) mask)

/-- The term of one column: p for class 0x03, t for class 0x04 (R96, R121, R123); zero for a masked column (R137). -/
def columnTerm (block : Bool) (line : List Int) (scale factor : Nat) (c : WCol) : Int :=
  let p := treeSum line c.w
  if block then p * ((scale * c.scale : Nat) : Int) else p * (factor : Int)

/-- Lane products of one column that do not switch (R133, R134). -/
def gatedLanes (masked : Bool) (line : List Int) (c : WCol) : Nat :=
  if masked then 32
  else ((List.range 32).filter (fun k => line.getD k 0 == 0 || c.w.getD k 0 == 0)).length

/-- The weights are read and the terms formed. A set that a load is writing gives unspecified terms (R57, R120,
log 10). -/
def doReadWeights (s : State) (o : Op) (a : Arr) (set row : Nat) (start block : Bool) (line : List Int)
    (scale factor mask : Nat) : State :=
  let x := (s.tile o.tile).arr a
  let busy := decide (0 < if set = 0 then x.busy0 else x.busy1)
  let cols := (List.range 480).map (fun j => (bitOf mask j, x.wcol set j))
  let terms :=
    if busy then cols.zipIdx.map (fun e => (Config.freeBits (s.draws + e.2)).toInt)
    else cols.map (fun e => if e.1 then 0 else columnTerm block line scale factor e.2)
  let gate := cols.foldl (fun n e => n + gatedLanes e.1 line e.2) 0
  let s1 := s.updTile o.tile (fun t => t.setArr a { x with
    gated := (x.gated + gate) % 2 ^ 64, ungated := x.ungated + (15360 - gate) })
  let s2 := { s1 with draws := s1.draws + (if busy then 480 else 0) }
  s2.emit o (o.issued + (if block then 26 else 24)) phaseResult (.addRow a row start block terms)

/-- Terms accumulated into a row's slots (R121). -/
def addTerms (start block : Bool) (slots terms : List Int) : List (Int × Bool) :=
  List.zipWith (fun v t => accumulate (if block then 64 else 40) start v t) slots terms

/-- The terms reach their row (R121, R122). Accumulates take effect in issue order: a class 0x04 issue reaches its row one
cycle after a class 0x03 issue of the next cycle, and counts as before it. -/
def doAddRow (s : State) (o : Op) (a : Arr) (row : Nat) (start block : Bool) (terms : List Int) : State :=
  let x := (s.tile o.tile).arr a
  let overtaken := match x.last with
    | some l => if block && l.row == row && l.issued == o.issued + 1 then some l else none
    | none => none
  let rs : List (Int × Bool) := addTerms start block (match overtaken with | some l => l.old | none => x.row row) terms
  let rs2 : List (Int × Bool) := match overtaken with
    | some l => addTerms l.start false (rs.map (fun r => r.1)) l.terms
    | none => rs
  let last := if block then x.last
    else some { row := row, issued := o.issued, old := x.row row, start := start, terms := terms }
  (s.updTile o.tile (fun t => t.setArr a { x with rows := SMap.set x.rows row (rs2.map (fun r => r.1)), last := last })).addSum
    o.tile (fun y => y.setAccSat (rs.any (fun r => r.2) || rs2.any (fun r => r.2)))

/-! ### Drains (R98, R126, R127) -/

/-- A row cleared after its read (R127): accumulates that have reached it are gone. -/
def clearRow (s : State) (tile : Nat) (a : Arr) (row : Nat) (clear : Bool) : State :=
  if clear then
    s.updTile tile (fun t => t.setArr a { t.arr a with
      rows := SMap.erase (t.arr a).rows row
      last := (t.arr a).last.filter (fun l => l.row != row) })
  else s

/-- A requantising drain (class 0x05). -/
def issueDrain5 (s : State) (o : Op) (a : Arr) (d : Desc) : State :=
  let t := s.tile o.tile
  let row := (t.arr a).row (fld d 27 20)
  let mask := if fld d 0 0 = 1 then (t.arr a).mask else 0
  let n := fld d 10 1
  let bias := if n = 1023 then [] else (Mem.read t.scratch (2048 * n) 1920)
  let bits := if fld d 18 17 = 0 then 8 else 16
  let qs := row.zipIdx.map (fun e =>
    (bitOf mask e.2, requantise bits (fld d 16 11) e.1 (if n = 1023 then 0 else sextNat 32 (leAt bias (4 * e.2) 4))))
  let out := qs.flatMap (fun q =>
    (leBytes (bits / 8) (BitVec.ofInt bits q.2.1).toNat).map (fun b => if q.1 then none else some b))
  let sats := (qs.filter (fun q => !q.1 && q.2.2)).length
  let s1 := (clearRow s o.tile a (fld d 27 20) (fld d 19 19 == 1)).addSum o.tile (fun y => y.addDrainSats sats)
  s1.emit o (o.issued + 11) (phaseDrain a) (.write (32 * fld d 47 28) out)

/-! ### Drain hooks (R151, R152) -/

/-- The constant 1/sqrt 2 (R151). -/
def hookC1 : F32 := 0x3F3504F3
/-- The constant 1/sqrt (2 pi) (R151). -/
def hookC2 : F32 := 0x3ECC422A
/-- One half. -/
def fpHalf : F32 := 0x3F000000
/-- Minus one half. -/
def fpMinusHalf : F32 := 0xBF000000

/-- A result with the events of the operations before it. -/
def withFlags (before : List FRes) (r : FRes) : FRes :=
  { r with fl := before.foldl (fun a x => a.or x.fl) r.fl }

/-- The hook's sequence on the drained value y and the saved value d (R151). -/
def hookApply (h : Nat) (y : FRes) (d : F32) : FRes :=
  let v := y.bits
  match h with
  | 1 => withFlags [y] (fadd v d)
  | 2 => withFlags [y] (fmax v 0)
  | 3 =>
    let t := fmul v hookC1
    let e := ferf t.bits
    let u := fadd e.bits fpOne
    let w := fmul u.bits v
    withFlags [y, t, e, u, w] (fmul w.bits fpHalf)
  | 4 =>
    let g := fsig v
    withFlags [y, g] (fmul v g.bits)
  | 5 => withFlags [y] (ftanh v)
  | 6 => withFlags [y] (fsig v)
  | 8 => { bits := if fcmp 2 0 d then v else 0, fl := y.fl.or (fpIn d) }
  | 9 =>
    let t := fmul d hookC1
    let e := ferf t.bits
    let a1 := fadd e.bits fpOne
    let a := fmul a1.bits fpHalf
    let q := fmul d d
    let w := fmul q.bits fpMinusHalf
    let g := fexp w.bits
    let hh := fmul g.bits hookC2
    let k := ffma d hh.bits a.bits
    withFlags [y, t, e, a1, a, q, w, g, hh, k] (fmul v k.bits)
  | 10 =>
    let g := fsig d
    let t := fsub fpOne g.bits
    let w := ffma d t.bits fpOne
    let x := fmul w.bits g.bits
    withFlags [y, g, t, w, x] (fmul v x.bits)
  | 11 =>
    let q := ffma (fneg d).bits d fpOne
    withFlags [y, q] (fmul v q.bits)
  | 12 =>
    let t := fsub fpOne d
    let u := fmul d t.bits
    withFlags [y, t, u] (fmul v u.bits)
  | _ => y

/-- A drain to FP32 (class 0x06): the row is read at the issue, d at + 8 (R152). -/
def issueDrain6 (s : State) (o : Op) (a : Arr) (d : Desc) : State :=
  let x := (s.tile o.tile).arr a
  let mask := if fld d 0 0 = 1 then x.mask else 0
  let ys := (x.row (fld d 27 20)).map (fun v => drainFp32 v (sextNat 10 (fld d 16 7)))
  let s1 := clearRow s o.tile a (fld d 27 20) (fld d 19 19 == 1)
  s1.emit o (o.issued + 8) phaseLine (.hook a (fld d 6 1) (fld d 47 28) ys mask)

/-- The hook reads d before the writes of its cycle and writes 11 cycles later (R152). -/
def doHook (s : State) (o : Op) (a : Arr) (h unit : Nat) (ys : List FRes) (mask : Nat) : State :=
  let ds := lanesOf 480 ((s.tile o.tile).bytes unit 1920)
  let rs := ys.zipIdx.map (fun e => (bitOf mask e.2, e.2 % 128, hookApply h e.1 (ds.getD e.2 0)))
  let out := rs.flatMap (fun r => (leBytes 4 r.2.2.bits.toNat).map (fun b => if r.1 then none else some b))
  let counted := (rs.filter (fun r => !r.1)).map (fun r => r.2)
  let s1 := s.addSum o.tile (fun y => y.addLanes o.issued counted)
  s1.emit o (o.issued + 19) (phaseDrain a) (.write (32 * unit) out)

end Sys2Proof.Machine
end

