-- ==== Sys2Proof/Machine/Skim.lean ====
section
/-!
DEFINITION. Sys2Proof/Machine/Skim.lean: the Skim unit (R139 to R146). An issue reads its activation entry and the
control word at its issue cycle; its fetch reaches the controller at + 24 (R163), where the model also
forms its terms, in issue order, whatever slot of a pooled partition serves the fetch (R122, R142, log 89); drained results are
written at + 346, among the landings of that cycle (log 91).
-/
namespace Sys2Proof.Machine

/-- The window offset of an issue's weight group (R141, R142). -/
def skimGroup (control : BitVec 64) (d : Desc) : Nat := 4096 * fld control 63 38 + 32 * fld d 47 24

/-- The format carries a trailer (R117). -/
def hasTrailer (f : Fmt) : Bool := f == .s4cb || f == .u4zp

/-- The columns of a fetched segment, expanded to S8 (R142). -/
def stagingOf (f : Fmt) (seg trailer : List Byte) : List WCol :=
  let sc := segScales f seg
  (List.range 32).map (fun c =>
    { w := weightLine f seg trailer false c, scale := if fmtScaled f then sc.getD c 0 else 128 })

/-- A Skim issue (class 0x10): its fetch claims slots of the controller that holds the group (R142, R163). -/
def issueSkim (s : State) (o : Op) (d : Desc) : State :=
  let t := s.tile o.tile
  let e := SMap.getD {} t.skim.entries (fld d 13 9)
  let act := Act.skim d e t.skim.control
  if fld d 18 18 = 1 then s.emit o (o.issued + 24) phaseMem act
  else
    match s.job o.job with
    | none => s
    | some j =>
      let p := s.part j.part
      let f := (fmtOf (fld d 17 14)).getD .s8
      let off := skimGroup t.skim.control d + fld d 23 20 * segBytes f
      match p.windowAddr (dieOf o.tile) false off (segBytes f) with
      | none => s.emit o (o.issued + 24) phaseMem act
      | some a =>
        let n := slotCount false (segBytes f + (if hasTrailer f then 32 else 0))
        let c := s.ctlOf (dieOf o.tile) false a
        if slotsGranted p.grant1 false (o.issued + 24) n then
          (s.setOpCtl o.id c).accessInOrder { o with act := act, ctl := some c } p j.part c p.grant1 false (o.issued + 24) n
        else s.emit o (o.issued + 24) phaseMem act

/-- Bytes of the tier-1 window of an issue's partition on the tile's die, where it holds them (R160). -/
def windowBytes (s : State) (o : Op) (off n : Nat) : Option (List Byte) :=
  match s.job o.job with
  | none => none
  | some j => ((s.part j.part).windowAddr (dieOf o.tile) false off n).map (fun a => s.readDie (dieOf o.tile) false [] a n)

/-- The fetch of a Skim issue: the new staging buffer, and the trailer that the unit holds (R142). A trailer is read with the
segment where the format carries one and the base differs from the previous fetch's. An access beyond the window, or in slots
outside the grant, is not performed and lands zeros (R160, R323); one whose operation has no controller claimed no slot. -/
def skimFetch (s : State) (o : Op) (d : Desc) (control : BitVec 64) : State :=
  let t := s.tile o.tile
  let f := (fmtOf (fld d 17 14)).getD .s8
  let g := skimGroup control d
  let fresh := hasTrailer f && (t.skim.trailer.map (fun x => x.1)) != some g
  let seg := windowBytes s o (g + fld d 23 20 * segBytes f) (segBytes f)
  let tr := if fresh then windowBytes s o (g + groupBytes f) 32 else some []
  let missed := seg.isNone || tr.isNone
  let live := !missed && o.ctl.isSome
  let segB := if live then seg.getD [] else List.replicate (segBytes f) 0
  let trB := if fresh then (if live then tr.getD [] else List.replicate 32 0)
    else match t.skim.trailer with | some x => x.2 | none => []
  let bad := o.spoiled || o.status == .uncorrectable
  let segC := if bad then segB.zipIdx.map (fun e => (Config.freeBits (s.draws + e.2)).setWidth 8) else segB
  let t1 := { t with misses := t.misses + b2n missed, regMisses := t.regMisses + b2n (!missed && o.ctl.isNone),
                     skim := { t.skim with staging := stagingOf f segC trB, trailer := some (g, trB) } }
  { s.setTile o.tile t1 with draws := s.draws + (if bad then segB.length else 0) }

/-- A drained Skim value: its bytes and its events (R144). -/
def skimDrain (control : BitVec 64) (v : Int) : List Byte × FFlags × Bool :=
  match fld control 17 16 with
  | 0 => (leBytes 4 (BitVec.ofInt 32 (satInt 32 v)).toNat, {}, satHit 32 v)
  | 1 =>
    let r := drainFp32 v (sextNat 10 (fld control 15 6))
    (leBytes 4 r.bits.toNat, r.fl, false)
  | 2 =>
    let q := requantise 16 (fld control 11 6) v 0
    (leBytes 2 (BitVec.ofInt 16 q.1).toNat, {}, q.2)
  | _ =>
    let q := requantise 8 (fld control 11 6) v 0
    ([BitVec.ofInt 8 q.1], {}, q.2)

/-- A Skim issue at its controller: fetch, accumulate and drain (R142 to R144). A failed check leaves the slot unspecified
(R67, log 10). -/
def doSkim (s : State) (o : Op) (d : Desc) (e : SkimEntry) (control : BitVec 64) : State :=
  let s0 := if fld d 18 18 = 1 then s else skimFetch s o d control
  let s1 := { s0 with draws := s0.draws + (if o.spoiled then 128 else 0) }
  let t := s1.tile o.tile
  let block := fld control 5 5 == 1
  let start := fld d 2 2 == 1
  let slot := fld d 8 3
  let old := fitTo 0 128 (SMap.getD [] t.skim.slots slot)
  let rs := (List.range 128).map (fun k =>
    let sl := k / 16
    let c := t.skim.staging.getD (16 * fld d 19 19 + k % 16) {}
    let ma := if e.scaled then e.scales.getD sl 0 else 128
    accumulate (if block then 64 else 40) start (old.getD k 0)
      (columnTerm block (e.rows.getD sl []) ma 1 c))
  let vals := if o.spoiled then
      (List.range 128).map (fun k => satInt (if block then 64 else 40) (Config.freeBits (s0.draws + k)).toInt)
    else rs.map (fun r => r.1)
  let s2 := s1.setTile o.tile { t with skim := { t.skim with slots := SMap.set t.skim.slots slot vals } }
  let s3 := s2.addSum o.tile (fun y => y.setAccSat (rs.any (fun r => r.2)))
  if fld d 1 1 = 1 then
    let ds := vals.map (skimDrain control)
    let s4 := s3.addSum o.tile (fun y =>
      (ds.foldl (fun a x => a.addFlags x.2.1) y).addDrainSats ((ds.filter (fun x => x.2.2)).length))
    s4.emit o (o.issued + 346) phaseLand
      (.write (32 * fld control 37 18 + 512 * slot) (ds.flatMap (fun x => x.1.map some)))
  else s3

/-- The activation entry a class 0x30 load takes from a segment (R140). -/
def skimEntryOf (f : Fmt) (bs : List Byte) : SkimEntry :=
  { rows := (List.range 8).map (segLine f bs false), scales := (segScales f bs).take 8,
    unsigned := fmtUnsigned f, scaled := fmtScaled f }

end Sys2Proof.Machine
end

