-- ==== Sys2Proof/Machine/Scratch.lean ====
section
/-!
DEFINITION. Sys2Proof/Machine/Scratch.lean: unit 4 (R154 to R157): loads and stores of class 0x30 and turns of class
0x31. Both read scratchpad at the issue cycle.
-/
namespace Sys2Proof.Machine

/-- What a register keeps of a word written to it: its Reserved field reads as zero and ignores writes (R11, R12): bits 4 to 0 of the
Skim control word (R141), bits 53 to 36 of a memory base register (R159). -/
def controlKept (w : BitVec 64) : BitVec 64 := w &&& 0xFFFFFFFFFFFFFFE0
/-- The same for a memory base register. -/
def baseKept (w : BitVec 64) : BitVec 64 := w &&& 0xFFC0000FFFFFFFFF

/-- A class 0x30 load: the event its register sees at issue + 3 (R156). -/
def loadAct (t : Tile) (d : Desc) : Act :=
  let u := fld d 47 28
  let ix := fld d 17 12
  let n := fld d 27 23 + 1
  match fld d 21 18 with
  | 0 => .setLanes ix ((lanesOf (8 * n) (t.bytes u (32 * n))).map some)
  | 1 => .setPred ix ((List.range 128).map (fun i => some (bitOf (leNat (t.bytes u 16)) i)))
  | 2 => .setMask .hawk (leNat (t.bytes u 60))
  | 3 => .setMask .float (leNat (t.bytes u 60))
  | 4 =>
    let f := (fmtOf (fld d 11 8)).getD .s8
    .setEntry ix (skimEntryOf f (t.bytes u (segBytes f)))
  | 5 => .setControl (BitVec.ofNat 64 (leNat (t.bytes u 8)))
  | _ => .setBase ix (BitVec.ofNat 64 (leNat (t.bytes u 8)))

/-- The bytes a class 0x30 store writes (R156). -/
def storeBytes (t : Tile) (d : Desc) : List Byte :=
  let n := fld d 27 23 + 1
  match fld d 21 18 with
  | 0 => laneBytes ((t.vreg (fld d 17 12)).take (8 * n))
  | 1 => leBytes 32 (t.pred (fld d 17 12))
  | _ => List.replicate (32 * n) 0

/-- A class 0x30 issue: complete at issue + 3 (R156). -/
def issueScratch (s : State) (o : Op) (d : Desc) : State :=
  let t := s.tile o.tile
  if fld d 22 22 = 0 then s.emit o (o.issued + 3) phaseResult (loadAct t d)
  else s.emit o (o.issued + 2) phaseStore (.write (32 * fld d 47 28) ((storeBytes t d).map some))

/-- A class 0x31 issue: complete at issue + 5 (R157). -/
def issueTurn (s : State) (o : Op) (d : Desc) : State :=
  let f := (fmtOf (fld d 7 4)).getD .s8
  let bs := (s.tile o.tile).bytes (fld d 47 28) (segBytes f)
  let s1 := s.addSum o.tile (fun y => y.setTurnScale (turnScale f bs true))
  s1.emit o (o.issued + 4) phaseStore (.write (32 * fld d 27 8) ((turnSegment f bs).map some))

end Sys2Proof.Machine
end

