-- ==== Sys2Proof/Machine/MemIssue.lean ====
section
/-!
DEFINITION. Sys2Proof/Machine/MemIssue.lean: unit 5 (R158 to R165, R217 to R222): reads and writes of tier 1 and
tier 2, puts and takes. An access reads scratchpad at its issue and reaches its controller at its
arrival cycle; what it lands is written in the cycle before its completion.
-/
namespace Sys2Proof.Machine

/-- The listed latency of a memory class (R71). -/
def memLatency : Nat → Nat
  | 0x41 => 336
  | 0x43 => 480
  | 0x44 => 496
  | _ => 320

/-- Cycles from issue to the controller (R163, R164). -/
def memArrival : Nat → Nat
  | 0x40 | 0x43 | 0x45 => 8
  | _ => 24

/-- The window offset of an access, in bytes (R160). -/
def windowOffset (t : Tile) (d : Desc) : Nat :=
  32 * (fld (SMap.getD 0 t.bases (fld d 27 24)) 35 0 + fld d 23 11)

/-- An access placed: its die address in the window, or none for a window miss (R160). A Reserved tier code
names no window (log 13). -/
def placeAccess (s : State) (tile jid tier off len : Nat) : Option Nat :=
  match s.job jid with
  | none => none
  | some j => if 2 ≤ tier then none else (s.part j.part).windowAddr (dieOf tile) (tier == 1) off len

/-- The grant of a partition on a tier (R322). -/
def Part.grant (p : Part) (tier2 : Bool) : Nat := if tier2 then p.grant2 else p.grant1

/-- An access of an issue is performed: it lies in its window, and its slots are usable and granted (R160, R323). -/
def State.performs (s : State) (o : Op) (cls off len tier : Nat) : Bool :=
  match s.job o.job with
  | none => false
  | some j => (placeAccess s o.tile o.job tier off len).isSome &&
      slotsGranted ((s.part j.part).grant (tier == 1)) (tier == 1) (o.issued + memArrival cls) (slotCount (tier == 1) len)

/-- The status word of a conversion from FP32 (R106) and its events, at the completion `done`. -/
def emitStatus (s : State) (o : Op) (done at_ : Nat) (c : ConvOut) : State :=
  let s1 := match c.status with
    | some st => s.emit o (done - 1) phaseLand (.write at_ (st.unitBytes.map some))
    | none => s
  s1.emit o done phaseResult (.sum c.fl c.status)

/-- Puts an access on the event list, or counts why it is not performed (R160, R323): `mk` builds its act from
the placed access. The window that the base register names is reached at the class's own arrival cycle, whatever path the class
names (log 115). -/
def startAccess (s : State) (o : Op) (cls off len : Nat) (tier code exponent : Nat) (unit : Nat) (fpMem : Bool)
    (mk : MemJob → Act) : State :=
  match s.job o.job with
  | none => s
  | some j =>
    let p := s.part j.part
    let tier2 := tier == 1
    let die := dieOf o.tile
    let n := slotCount tier2 len
    let arrival := o.issued + memArrival cls
    let m (a : Nat) (live : Bool) : MemJob :=
      { addr := a, die := die, tier2 := tier2, part := j.part, len := len, unit := unit, code := code, fpMem := fpMem,
        exponent := coarseExp exponent, live := live }
    match placeAccess s o.tile o.job tier off len with
    | none =>
      (s.updTile o.tile (fun t => { t with misses := t.misses + 1 })).emit o arrival phaseMem (mk (m 0 false))
    | some a =>
      if slotsGranted (p.grant tier2) tier2 arrival n then
        let c := s.ctlOf die tier2 a
        let o1 : Op := { o with ctl := some c, act := mk (m a true) }
        let s1 := s.setOpCtl o.id c
        match o1.act with
        | .put _ _ _ _ _ _ => s1.accessInOrder o1 p j.part c (p.grant tier2) tier2 arrival n
        | _ => s1.access o1 p j.part c (p.grant tier2) tier2 arrival n
      else
        (s.updTile o.tile (fun t => { t with regMisses := t.regMisses + 1 })).emit o arrival phaseMem (mk (m 0 false))

/-- Bytes that an access lands in scratchpad (R161). -/
def landBytes (code : Nat) (fpMem : Bool) (len : Nat) : Nat :=
  if code = 0 then len
  else if fpMem then (match convCode code with | some (f, _) => segBytes f | none => len)
  else 4096

/-- A read or write of classes 0x40 to 0x44 (R159 to R161). A write that is not performed changes nothing, its conversion's
status word and events among it (R160, R323). -/
def issueMemory (s : State) (o : Op) (cls : Nat) (d : Desc) : State :=
  let t := s.tile o.tile
  let b := SMap.getD 0 t.bases (fld d 27 24)
  let code := fld d 3 0
  let fpMem := fld d 4 4 == 1
  let unit := fld d 47 28
  let len := if code = 0 then 32 * (fld d 10 6 + 1) else convMemBytes code fpMem
  let e := fld b 61 54
  if fld d 5 5 = 0 then
    startAccess s o cls (windowOffset t d) len (fld b 63 62) code e unit fpMem .memRead
  else
    let src := t.bytes unit (if code = 0 then len else if fpMem then landBytes code true len else 4096)
    let c := convert code fpMem (coarseExp e) src
    let s1 := if s.performs o cls (windowOffset t d) len (fld b 63 62)
      then emitStatus s o (o.issued + memLatency cls) (32 * unit + 4096) c else s
    startAccess s1 o cls (windowOffset t d) len (fld b 63 62) code e unit fpMem (fun m => .memWrite m c.bytes)

/-- The form a stash code names, and whether its blocks are square. -/
def stashForm (code : Nat) : Fmt × Bool := (convCode code).getD (.s8bs, false)

/-- A read at its controller (R160, R161). -/
def doMemRead (s : State) (o : Op) (m : MemJob) (done : Nat) : State :=
  if m.live then
    s.emit o (done - 1) phaseLand (.readLand m (s.readDie m.die m.tier2 (s.part m.part).keys m.addr m.len) none false)
  else
    s.emit o (done - 1) phaseLand (.write (32 * m.unit)
      (List.replicate (landBytes m.code m.fpMem m.len) (some 0)))

/-- What was read lands, converted where the access converts, with the conversion's status word and events (R155, R161, R106,
R221). After an uncorrectable error of the memory it is the data as received (R168, log 10), and where a check of the issue failed what
lands is unspecified (R67, log 10). -/
def doReadLand (s : State) (o : Op) (m : MemJob) (raw : List Byte) (take : Option Bool) (kept : Bool) : State :=
  let bad := o.status == .uncorrectable && !kept
  let bs := if bad then freeBytes s.draws raw.length else raw
  let d1 := s.draws + (if bad then raw.length else 0)
  let c : ConvOut := match take with
    | none => convert m.code (!m.fpMem) m.exponent bs
    | some true => convert m.code true m.exponent bs
    | some false => { bytes := fitTo 0 (segBytes (stashForm m.code).1) bs }
  let n := c.bytes.length
  let out (d : Nat) (x : List Byte) : List (Option Byte) := (if o.spoiled then freeBytes d x.length else x).map some
  let land := if take.isSome then n else landBytes m.code m.fpMem m.len
  let s1 := ({ s with draws := d1 + (if o.spoiled then n + 32 else 0) }).updTile o.tile (fun t =>
    let t1 := t.store (32 * m.unit) (out d1 c.bytes)
    match c.status with
    | some st => t1.store (32 * m.unit + land) (out (d1 + n) st.unitBytes)
    | none => t1)
  s1.emit o (o.due + 1) phaseResult (.sum c.fl c.status)

/-- A write at its controller (R160): its data is visible at the listed latency (R71). -/
def doMemWrite (s : State) (o : Op) (m : MemJob) (bs : List Byte) : State :=
  if m.live then s.emit o (o.issued + memLatency o.cls) phaseResult (.memStore m bs) else s

/-- Written data becomes visible (R71, R168): after an uncorrectable error the bytes may or may not be stored. -/
def doMemStore (s : State) (o : Op) (m : MemJob) (bs : List Byte) : State :=
  if o.status = .uncorrectable then
    let r := s.draw
    if bitOf r.1.toNat 0 then r.2.writeDie m.die m.tier2 (s.part m.part).keys m.addr bs else r.2
  else s.writeDie m.die m.tier2 (s.part m.part).keys m.addr bs

/-! ### The stash (R217 to R222) -/

/-- The lines of a row-blocked segment that are stored (R218). -/
def keptLines (scales : List Nat) : List Nat := positions (fun m => m != 0) (fitTo 0 32 scales)

/-- A put's packed size in scratchpad units (R218). -/
def packedSize (code : Nat) (scales : List Nat) : Nat :=
  let f := stashForm code
  if scales.all (fun m => m == 0) then 0
  else if f.2 then (if f.1 = .s8bs then 33 else 17)
  else if f.1 = .s8bs then 1 + (keptLines scales).length
  else 1 + ceilDiv (keptLines scales).length 2

/-- A kept put packed: scale bytes, then the lines that are not zero; a square form in its own layout (R218). -/
def packStash (code : Nat) (scales : List Nat) (seg : List Byte) : List Byte :=
  let f := stashForm code
  let w := mantBytes f.1 / 32
  if scales.all (fun m => m == 0) then []
  else if f.2 then seg
  else scales.map (fun m => BitVec.ofNat 8 m) ++ (keptLines scales).flatMap (fun r => slice seg (w * r) w)

/-- The segment a kept put holds (R221). -/
def unpackStash (code : Nat) (zero : Bool) (packed : List Byte) : List Byte :=
  let f := stashForm code
  let w := mantBytes f.1 / 32
  if zero then List.replicate (segBytes f.1) 0
  else if f.2 then fitTo 0 (segBytes f.1) packed
  else
    let sc := packed.take 32
    let kept := keptLines (sc.map (fun b => b.toNat))
    (List.range 32).flatMap (fun r =>
      if kept.contains r then fitTo 0 w (slice packed (32 + w * kept.idxOf r) w) else List.replicate w 0) ++ sc

/-- A put (class 0x45, R217): its source is read whole at the issue. -/
def issuePut (s : State) (o : Op) (d : Desc) : State :=
  let t := s.tile o.tile
  let b := SMap.getD 0 t.bases (fld d 27 24)
  let code := fld d 3 0
  let unit := fld d 47 28
  let c := convert code false (coarseExp (fld b 61 54)) (t.bytes unit 4096)
  let f := stashForm code
  let start := match (s.job o.job).bind (fun j => j.live) with | some r => r.start | none => o.issued
  let keepable := match t.stash.plan with
    | some p => decide (p.keep ≤ o.issued - start)
    | none => false
  let off := windowOffset t d
  let s1 := if s.performs o 0x45 off (segBytes f.1) (fld b 63 62) then emitStatus s o (o.issued + 320) (32 * unit + 4096) c else s
  startAccess s1 o 0x45 off (segBytes f.1) (fld b 63 62) code (fld b 61 54) unit false
    (fun m => .put m off c.bytes (segScales f.1 c.bytes) f.2 keepable)

/-- A put at its arrival cycle (R219, R220): kept, or written to its place, complete at issue + 320 (R219 to R221). -/
def doPut (s : State) (o : Op) (m : MemJob) (off : Nat) (bs : List Byte) (scales : List Nat) (keepable : Bool) :
    State :=
  let t := s.tile o.tile
  let x := t.stash
  if !m.live then s
  else
    let size := packedSize m.code scales
    let room := match x.plan with
      | some p => decide (x.occupied + size ≤ p.units) && decide (x.dir.length < 16384)
      | none => false
    if keepable && room then
      let base := match x.plan with | some p => p.base | none => 0
      let e : StashEntry := { start := base + x.occupied, code := m.code, zero := scales.all (fun v => v == 0) }
      (s.setTile o.tile { t with stash := { x with dir := SMap.set x.dir off e, occupied := x.occupied + size,
                                                   kept := x.kept + 1 } }).emit o (o.issued + 319) phaseLand
        (.write (32 * e.start) ((packStash m.code scales bs).map some))
    else
      let s1 := s.setTile o.tile { t with
        stash := { x with dir := SMap.erase x.dir off, placed := x.placed + 1,
                          overflow := x.overflow + b2n keepable } }
      let s2 := doMemWrite s1 o m bs
      match s.job o.job with
      | none => s2
      | some j =>
        let strict := match s.jobImage j with | some i => bitOf (i.field 8 4) 0 | none => false
        if keepable && strict then s2.raise o.job 0x08 (o.issued + 8) (j.atTile o.tile 5 0 o.record) else s2

/-- A take (class 0x45, R217, R221). -/
def issueTake (s : State) (o : Op) (d : Desc) : State :=
  let t := s.tile o.tile
  let b := SMap.getD 0 t.bases (fld d 27 24)
  let off := windowOffset t d
  let code := fld d 3 0
  startAccess s o 0x45 off (segBytes (stashForm code).1) (fld b 63 62) code (fld b 61 54) (fld d 47 28) false
    (fun m => .take m off (fld d 4 4 == 0))

/-- A take at its arrival: from the stash where its directory names the offset, else from the place (R221). A take whose code is not
that of the put it takes unpacks by the put's code and converts by its own (log 120). -/
def doTake (s : State) (o : Op) (m : MemJob) (off : Nat) (toFp : Bool) : State :=
  let t := s.tile o.tile
  let seg : List Byte × Bool :=
    match SMap.find t.stash.dir off with
    | some e => (unpackStash e.code e.zero (t.bytes e.start 1056), true)
    | none =>
      if m.live then (s.readDie m.die m.tier2 (s.part m.part).keys m.addr m.len, false)
      else (List.replicate (segBytes (stashForm m.code).1) 0, true)
  s.emit o (o.issued + 319) phaseLand (.readLand m seg.1 (some toFp) seg.2)

end Sys2Proof.Machine
end

