-- ==== Sys2Proof/Machine/Plans.lean ====
section
/-!
DEFINITION. Sys2Proof/Machine/Plans.lean: the tables that an image carries for its transfers, sync objects,
reductions and training (R73, R75, R223, R225, R229, R230, R245, R250, R361), read from the section
bytes.
-/
namespace Sys2Proof.Machine

/-- A transfer entry (R361). -/
structure TEntry where
  entry : Nat
  receive : Bool
  mode : Nat
  link : Nat
  via : Nat
  dest : Nat
  remote : Nat
  units : Nat
  values : Nat
  base : Nat
  count : Nat
  length : Nat
  deriving DecidableEq, Repr

/-- A transfer entry from its 256 bits (R361). -/
def tEntryOf (w : Nat) : TEntry :=
  { entry := bitsOf w 255 243, receive := bitOf w 242, mode := bitsOf w 240 239, link := bitsOf w 238 233,
    via := bitsOf w 232 230, dest := bitsOf w 229 213, remote := bitsOf w 212 200, units := bitsOf w 199 187,
    values := bitsOf w 186 167, base := bitsOf w 166 149, count := bitsOf w 148 136, length := bitsOf w 135 116 }

/-- The number of a LATH_SLOTS section's link entries (R361). -/
def lathLinkCount (bs : List Byte) : Nat := leAt bs 4 4

/-- The link entries of LATH_SLOTS: link, width needed, delivery bound (R361). -/
def lathLinks (bs : List Byte) : List (Nat × Nat × Nat) :=
  (recordsAt bs 16 16 (lathLinkCount bs)).map (fun w => (bitsOf w 127 122, bitsOf w 121 120, bitsOf w 95 64))

/-- The transfer entries of a section (R361): `lath` says that link entries come first. -/
def tEntries (lath : Bool) (bs : List Byte) : List TEntry :=
  (recordsAt bs (16 + (if lath then 16 * lathLinkCount bs else 0)) 32 (leAt bs 0 4)).map tEntryOf

/-- The declared delivery bound of a link (R72). -/
def boundOf (bs : List Byte) (link : Nat) : Option Nat :=
  ((lathLinks bs).find? (fun e => e.1 == link)).map (fun e => e.2.2)

/-- A sync-object declaration (R73). -/
structure SyncDecl where
  counter : Bool
  scope : Nat
  commit : Bool
  expected : Nat
  beat : Nat
  deriving DecidableEq, Repr

/-- The declarations of a SYNC section, by object number (R73). -/
def syncDecls (bs : List Byte) : List SyncDecl :=
  (recordsAt bs 16 8 (leAt bs 0 4)).map (fun w =>
    { counter := bitsOf w 63 62 == 1, scope := bitsOf w 61 60, commit := bitOf w 59, expected := bitsOf w 55 32,
      beat := bitsOf w 31 0 })

/-- A shape class (R75). -/
structure ShapeClass where
  cls : Nat
  frames : Nat
  seqs : Nat
  prompt : Nat
  position : Nat
  deriving DecidableEq, Repr

/-- The class table, in table order (R75). -/
def shapeClasses (bs : List Byte) : List ShapeClass :=
  (recordsAt bs 16 32 (leAt bs 0 4)).map (fun w =>
    { cls := bitsOf w 255 250, frames := bitsOf w 247 232, seqs := bitsOf w 231 217, prompt := bitsOf w 216 198,
      position := bitsOf w 197 179 })

/-- The stash plan of an image tile in a class (R223). -/
def stashPlan (bs : List Byte) (tile cls : Nat) : Option StashPlan :=
  let es := (recordsAt bs 8 16 (leAt bs 0 4)).filter (fun w => bitsOf w 127 122 == tile)
  let pick := match es.find? (fun w => bitsOf w 121 114 == cls) with
    | some w => some w
    | none => es.find? (fun w => bitsOf w 121 114 == 0xFF)
  pick.map (fun w => { base := 32 * bitsOf w 103 89, units := 32 * bitsOf w 88 74, keep := bitsOf w 73 42 })

/-- A bucket entry (R245). -/
structure BucketEntry where
  bucket : Nat
  module : Nat
  die : Nat
  ctl : Nat
  homed : Bool
  size : Nat
  selector : Nat
  adjust : Int
  carryLimit : Nat
  cls : Nat
  close : Nat
  grace : Nat
  settle : Nat
  wordTile : Nat
  wordUnit : Nat
  acc : Nat
  tensor : Nat
  element : Nat
  deriving DecidableEq, Repr

/-- A bucket entry from its 512 bits (R245). -/
def bucketOf (w : Nat) : BucketEntry :=
  { bucket := bitsOf w 511 496, module := bitsOf w 495 486, die := bitsOf w 485 483, ctl := bitsOf w 482 481,
    homed := bitOf w 480, size := bitsOf w 479 475, selector := bitsOf w 474 465,
    adjust := sextNat 8 (bitsOf w 464 457), carryLimit := bitsOf w 456 441, cls := bitsOf w 440 433,
    close := bitsOf w 415 384, grace := bitsOf w 383 368, settle := bitsOf w 367 336, wordTile := bitsOf w 335 330,
    wordUnit := bitsOf w 329 310, acc := bitsOf w 303 268, tensor := bitsOf w 267 244, element := bitsOf w 243 208 }

/-- The bucket entries of SCREED_SLOTS (R245). -/
def bucketEntries (bs : List Byte) : List BucketEntry := (recordsAt bs 16 64 (leAt bs 0 4)).map bucketOf

/-- Elements of a bucket (R242). -/
def BucketEntry.elements (b : BucketEntry) : Nat := b.size * 2 ^ 19

/-- A send entry (R250). -/
structure SendEntry where
  tile : Nat
  send : Nat
  bucket : Nat
  mode : Nat
  ratio : Nat
  status : Bool
  elements : Nat
  offset : Nat
  residual : Nat
  list : Nat
  link : Nat
  deriving DecidableEq, Repr

/-- A send entry from its 256 bits (R250). -/
def sendOf (w : Nat) : SendEntry :=
  { tile := bitsOf w 255 250, send := bitsOf w 249 236, bucket := bitsOf w 235 220, mode := bitsOf w 219 218,
    ratio := bitsOf w 217 214, status := bitOf w 213, elements := bitsOf w 207 184, offset := bitsOf w 183 160,
    residual := bitsOf w 159 124, list := bitsOf w 123 104, link := bitsOf w 103 98 }

/-- The send entries of SCREED_SLOTS (R245). -/
def sendEntries (bs : List Byte) : List SendEntry :=
  (recordsAt bs (16 + 64 * leAt bs 0 4) 32 (leAt bs 4 4)).map sendOf

/-! ### The training map (R229, R230) -/

/-- A parameter entry (R230). -/
structure ParamEntry where
  tensor : Nat
  layer : Nat
  die : Nat
  owner : Bool
  vector : Bool
  elements : Nat
  setX : Nat
  setY : Nat
  copy : Nat
  exponent : Int
  first : Nat
  deriving DecidableEq, Repr

/-- A parameter entry from its 256 bits (R230). -/
def paramOf (w : Nat) : ParamEntry :=
  { tensor := bitsOf w 255 232, layer := bitsOf w 231 216, die := bitsOf w 215 213, owner := bitOf w 212,
    vector := bitsOf w 211 210 == 1, elements := bitsOf w 199 164, setX := bitsOf w 163 128, setY := bitsOf w 127 92,
    copy := bitsOf w 91 56, exponent := sextNat 8 (bitsOf w 55 48), first := bitsOf w 47 12 }

/-- The parameter entries (R229). -/
def paramEntries (bs : List Byte) : List ParamEntry := (recordsAt bs 64 32 (leAt bs 0 4)).map paramOf

/-- Where the selector entries begin. -/
def selectorStart (bs : List Byte) : Nat := 64 + 32 * leAt bs 0 4

/-- A selector entry: tile, family, default format, default exponent, block (R225). -/
structure Selector where
  tile : Nat
  family : Nat
  fmt : Nat
  exponent : Int
  block : Nat
  deriving DecidableEq, Repr

/-- The selector entries, in order (R225, R229). -/
def selectors (bs : List Byte) : List Selector :=
  (recordsAt bs (selectorStart bs) 16 (leAt bs 4 2)).map (fun w =>
    { tile := bitsOf w 127 122, family := bitsOf w 121 121, fmt := bitsOf w 120 120,
      exponent := sextNat 8 (bitsOf w 119 112), block := bitsOf w 111 92 })

/-- A phase window: tile, phase, start, end (R240). -/
structure PhaseWindow where
  tile : Nat
  phase : Nat
  start : Nat
  stop : Nat
  deriving DecidableEq, Repr

/-- The phase windows (R229, R240). -/
def phaseWindows (bs : List Byte) : List PhaseWindow :=
  (recordsAt bs (selectorStart bs + 16 * leAt bs 4 2) 16 (leAt bs 6 2)).map (fun w =>
    { tile := bitsOf w 127 122, phase := bitsOf w 121 119, start := bitsOf w 95 64, stop := bitsOf w 63 32 })

/-- The phase of a cycle of an image tile's step: 7 outside every window (R240). -/
def phaseOf (bs : List Byte) (tile cycle : Nat) : Nat :=
  match (phaseWindows bs).find? (fun w => w.tile == tile && decide (w.start ≤ cycle) && decide (cycle < w.stop)) with
  | some w => w.phase
  | none => 7

/-- The selection word of a selector as it stands in scratchpad (R226, R227): format and exponent. -/
def State.selection (s : State) (j : Job) (i : Nat) : Nat × Int :=
  match (selectors (s.jobConstant j 3))[i]? with
  | none => (0, 0)
  | some x =>
    let w := Mem.num (s.tile ((j.tileOf x.tile).getD x.tile)).scratch (32 * x.block + 128) 4
    (bitsOf w 8 8, sextNat 8 (bitsOf w 7 0))

end Sys2Proof.Machine
end

