-- ==== Sys2Proof/Machine/Transfer.lean ====
section
/-!
DEFINITION. Sys2Proof/Machine/Transfer.lean: units 6, 7 and 9 (R343 to R347, R360 to R364, R475): sends and receives on
die-to-die and Lath links, and sync arrives.
-/
namespace Sys2Proof.Machine

/-- Cycles a die-to-die transfer takes beyond its first (R71, R364). -/
def linkCycles (units : Nat) : Nat := ceilDiv (32 * units) 1600

/-- The latency of a die-to-die transfer of class 0x50 or 0x51 (R71). -/
def dieLatency (cls units : Nat) : Nat := (if cls = 0x50 then 40 else 88) + linkCycles units - 1

/-- The transfer entry that a descriptor names, in one direction (R360, R361). -/
def State.transfer (s : State) (j : Job) (lath receive : Bool) (d : Desc) : Option TEntry :=
  (tEntries lath (s.jobSection j (if lath then 4 else 3))).find? (fun e =>
    e.entry == fld d 47 35 && e.receive == receive)

/-! ### Send points (R343, R344) -/

/-- A cycle is a send point that a link of a width uses, and is not reserved (R343, R344). -/
def trafficPoint (width c : Nat) : Bool :=
  let k := c % 1024
  let i := k / 12
  k % 12 == 0 && decide (i < 84) && i != 0 && !(i == 80 && c % 65536 / 1024 == 63) &&
  (match width with
   | 3 => true
   | 2 => i % 2 == 0
   | 1 => i % 4 == 0
   | _ => false)

/-- The next n free send points at or after a cycle: neither reserved nor taken (R362). -/
def freePoints (width : Nat) (taken : List Nat) : Nat → Nat → Nat → List Nat
  | 0, _, _ => []
  | _, 0, _ => []
  | fuel + 1, n + 1, c =>
    if trafficPoint width c && !taken.contains c then c :: freePoints width taken fuel n (c + 1)
    else freePoints width taken fuel (n + 1) (c + 1)

/-- Send points for n flits of a partition on a link, searched over as many periods as they can need. Points that flits of the
partition have taken are passed over; those of another partition lie in its own grant, or are settled at the point (R324, R337). -/
def Link.points (l : Link) (pid ready n : Nat) : List Nat :=
  let mine := (l.taken.filter (fun e => e.1 == pid)).map (fun e => e.2)
  freePoints l.width mine (1024 * ((n + mine.length) / 16 + 3)) n ready

/-- Queues flits of an issue on a link at the send points they take, nothing where the link is barred to their job (R352); nothing
where a point lies outside the grant
(R323, R362). Answers whether they were queued. -/
def queueFlits (s : State) (p : Part) (pid link ready id : Nat) (fs : List Flit) : State × Bool :=
  let l := s.link link
  let pts := l.points pid ready fs.length
  let barred := fs.any (fun f => match s.job f.job with | some j => j.barred.contains link | none => false)
  if barred then (s, true)
  else if pts.all (granted p.grantLath) then
    (s.updLink link (fun x => { x with
      taken := x.taken ++ pts.map (fun c => (pid, c)),
      sched := x.sched ++ List.zipWith (fun f c =>
        ({ point := c, ready := ready, part := pid, flit := f, grant := p.grantLath, id := id } : QFlit)) fs pts }),
     true)
  else (s, false)

/-- The flits of a transfer (R342, R361, R362). -/
def flitsOf (job dest remote : Nat) (bs : List Byte) : List Flit :=
  let n := ceilDiv bs.length 240
  (List.range n).map (fun i =>
    { type := 1, job := job, dest := dest, word := remote * 1024 + i, last := i + 1 == n,
      payload := fitTo 0 240 (slice bs (240 * i) 240) })

/-- The entry list that a compacting send forms (R202, R362): k entries, and padding in what is left of its Units (log 85). -/
def compact (e : TEntry) (vals : List F32) : List Byte :=
  let nz := (vals.zipIdx.filter (fun p => (p.1 &&& 0x7FFFFFFF) != 0)).take e.count
  let rows := nz.map (fun p => (e.base + p.2) * 2 ^ 32 + p.1.toNat)
  (fitTo (0xFFFFFFFF * 2 ^ 32) (4 * e.units) rows).flatMap (leBytes 8)

/-- The bytes that a send carries, read from scratchpad at its issue (R362); unspecified where a check of it failed (R67, log 10). -/
def sendBytes (s : State) (o : Op) (e : TEntry) (d : Desc) : List Byte :=
  let t := s.tile o.tile
  let u := fld d 34 15
  let bs := if e.mode = 1 then compact e (lanesOf e.values (t.bytes u (4 * e.values))) else t.bytes u (32 * e.units)
  if o.spoiled then freeBytes s.draws bs.length else bs

/-- A send that is not granted is not sent and counts a regulator miss (R323). -/
def missGrant (s : State) (tile : Nat) : State :=
  s.updTile tile (fun t => { t with regMisses := t.regMisses + 1 })

/-- A Lath send (class 0x60, R362). -/
def issueLathSend (s : State) (o : Op) (d : Desc) : State :=
  match s.job o.job with
  | none => s
  | some j =>
    match s.transfer j true false d with
    | none => s
    | some e =>
      let ready := if e.mode = 1 then o.issued + ceilDiv e.values 128 + 4 else o.issued
      let r := queueFlits { s with draws := s.draws + (if o.spoiled then 32 * e.units else 0) } (s.part j.part) j.part e.link ready o.id
        (flitsOf o.job e.dest e.remote (sendBytes s o e d))
      if r.2 then r.1 else missGrant s o.tile

/-- The number of a die-to-die link direction as a slot resource (R324). -/
def dieLinkRes (src dst : Nat) : Nat := 100 + 8 * src + dst

/-- The same as one partition's own plan claims it (R364). -/
def planRes (part res : Nat) : Nat := 1000 * (part + 1) + res

/-- The first cycle that another send of the partition has claimed on a link (R364). -/
def State.claimed (s : State) (part res : Nat) (cs : List Nat) : Option Nat :=
  cs.find? (fun c => s.taken.contains (planRes part res, c))

/-- A die-to-die hop has a link in service: both its ends are (R18). -/
def State.hopUp (s : State) (a b : Nat) : Bool := !s.lostDies.contains a && !s.lostDies.contains b

/-- A die-to-die hop has carried what it carried up to a cycle: it is in service, or it was to the end of that cycle (R18, R384). -/
def State.hopCarried (s : State) (a b last : Nat) : Bool :=
  s.hopUp a b || (match s.lossAt with | some t => decide (last < nextFrame t) | none => false)

/-- A die-to-die send (classes 0x50 and 0x51, R364): it crosses the links that its entry names, in the link cycles of its plan, or in
those that R324 gives a pooled partition. Where a link of a lost die is among them it carries nothing (R18). A class 0x50 send whose
entry names a die that is no neighbour crosses in one hop all the same (log 84). -/
def issueDieSend (s : State) (o : Op) (cls : Nat) (d : Desc) : State :=
  match s.job o.job with
  | none => s
  | some j =>
    match s.transfer j false false d with
    | none => s
    | some e =>
      let p := s.part j.part
      let src := dieOf o.tile
      let n := linkCycles e.units
      let c1 := (List.range n).map (fun i => o.issued + 8 + i)
      let c2 := if cls = 0x51 then (List.range n).map (fun i => o.issued + 56 + i) else []
      let mid := if cls = 0x51 then e.via else e.link
      let r1 := dieLinkRes src mid
      let r2 := dieLinkRes e.via e.link
      if (c1 ++ c2).all (granted p.grantDie) then
        let clash := (s.claimed j.part r1 c1).toList ++ (s.claimed j.part r2 c2).toList
        let s1 := { s with
          draws := s.draws + (if o.spoiled then 32 * e.units else 0)
          taken := c1.map (fun c => (planRes j.part r1, c)) ++ c2.map (fun c => (planRes j.part r2, c)) ++ s.taken }
        let s2 := clash.foldl (fun (st : State) c => st.emit o c phaseResult (.clash (bitsOf e.dest 6 4) e.remote)) s1
        let land := Act.dieLand o.job e.remote (sendBytes s o e d) (bitsOf e.dest 6 0) mid
        if !(s.hopUp src mid && s.hopUp mid e.link) then s2
        else if p.pooled then
          let last := Act.cross (dieLatency cls e.units - 1) land
          let next := if cls = 0x51 then .cross 56 (.claim r2 n p.grantDie false (o.issued + 55 + n) last) else last
          s2.access { o with act := next } p j.part r1 p.grantDie false (o.issued + 8) n
        else s2.emit o (o.issued + dieLatency cls e.units - 1) phaseMem land
      else missGrant s o.tile

/-! ### Receives (R347, R363) -/

/-- A receive is issued: a new use of its entry, with the flits that came before it (R347). -/
def issueReceive (s : State) (o : Op) (lath : Bool) (cls : Nat) (d : Desc) (entry : Option Nat) : State :=
  match s.job o.job with
  | none => s
  | some j =>
    match s.transfer j lath true d with
    | none => s
    | some e =>
      let lat := if lath then (boundOf (s.jobSection j 4) e.link).getD 0 else dieLatency cls e.units
      let due := o.issued + lat + (if e.mode = 2 then 8 else 0)
      let unit := if lath then 7 else 6
      let s1 := s.updRun o.job (fun r =>
        let mine := r.early.filter (fun x => x.1 == unit && x.2.1 == e.entry)
        let u : Recv := { id := o.id, job := o.job, unit := unit, entry := e.entry, tile := o.tile,
                          address := fld d 34 15, delivery := due, units := e.units,
                          got := mine.foldl (fun m x => match x.2.2.2 with
                            | some bs => SMap.set m x.2.2.1 bs
                            | none => m) [],
                          lossSeen := mine.any (fun x => x.2.2.2.isNone) }
        { r with recvs := r.recvs ++ [u], early := r.early.filter (fun x => !(x.1 == unit && x.2.1 == e.entry)) })
      (s1.emit o (max o.issued (due - 1)) phaseLand (.landing o.id)).emit o due phaseResult (.deliver o.id entry)

/-- Flits of a transfer of some units (R361). -/
def flitCount (units : Nat) : Nat := ceilDiv (32 * units) 240

/-- A flit (or a loss flit, or a whole die-to-die transfer as flit 0) reaches an entry of a job: it belongs to the
use whose window holds the cycle (R347). -/
def landFlit (s : State) (jid unit entry index at_ : Nat) (data : Option (List Byte)) : State :=
  s.updRun jid (fun r =>
    let open_ := r.recvs.filter (fun u => u.unit == unit && u.entry == entry && !u.done && decide (at_ ≤ u.delivery))
    match open_ with
    | [] =>
      { r with early := r.early ++ [(unit, entry, index, data)] }
    | u :: _ =>
      let u' := match data with
        | some bs => { u with got := SMap.set u.got index bs }
        | none => { u with lossSeen := true }
      { r with recvs := r.recvs.map (fun x => if x.id = u.id then u' else x) })

/-- The links of a die-to-die transfer have carried it (R18, R364): by way of `mid`, or straight to it. -/
def State.dieCarried (s : State) (o : Op) (mid dst n : Nat) : Bool :=
  s.hopCarried (dieOf o.tile) mid (o.issued + 7 + n) && s.hopCarried mid dst (o.issued + 55 + n)

/-- The tile that a landing for an image tile of a job comes to (R319, R325): the one bound to it while the job is resident, else the
tile of that number (log 129). -/
def State.landingTile (s : State) (jid img : Nat) : Nat :=
  (((s.job jid).filter (fun j => j.resident)).bind (fun j => j.tileOf img)).getD img

/-- A tile's context is another partition's, which is SEALED and strict: nothing done through this job changes its reports (R337). -/
def State.shielded (s : State) (jid tile : Nat) : Bool :=
  match (s.tile tile).job.bind s.job with
  | some k => (s.part k.part).state == .sealed && !(s.part k.part).pooled && (match s.job jid with | some j => j.part != k.part | none => true)
  | none => false

/-- A scheduled landing at a tile (R325): its job's context has to be bound there, else it is discarded and counted, but not in a report
that R337 keeps from other partitions (log 129). -/
def landAt (s : State) (jid unit img entry index at_ : Nat) (data : Option (List Byte)) : State :=
  let tile := s.landingTile jid img
  if (s.tile tile).job = some jid && (s.job jid).any (fun j => j.resident) then landFlit s jid unit entry index at_ data
  else if s.shielded jid tile then s
  else missGrant s tile

/-- A die-to-die transfer's data reaches its tile (R325, R364). -/
def doDieLand (s : State) (jid entry : Nat) (bs : List Byte) (target at_ : Nat) : State :=
  landAt s jid 6 (12 * (target / 16) + target % 16) entry 0 at_ (some bs)

/-- The bytes of a use that have come and have not landed. -/
def Recv.bytes (u : Recv) : List (Option Byte) :=
  let new (i : Nat) : Option (List Byte) := if u.landed.contains i then none else SMap.find u.got i
  if u.unit = 6 then
    match new 0 with
    | some bs => bs.map some
    | none => []
  else
    ((List.range (flitCount u.units)).flatMap (fun i =>
      match new i with
      | some bs => (fitTo 0 240 bs).map some
      | none => List.replicate 240 none)).take (32 * u.units)

/-- Every flit of a use has landed. -/
def Recv.complete (u : Recv) : Bool :=
  if u.unit = 6 then (SMap.find u.got 0).isSome
  else (List.range (flitCount u.units)).all (fun i => (SMap.find u.got i).isSome)

/-- Writes the entries of a scatter landing (R363). -/
def scatter (t : Tile) (e : TEntry) (unit : Nat) (bs : List (Option Byte)) : Tile :=
  (List.range (bs.length / 8)).foldl (fun acc i =>
    let cell := slice bs (8 * i) 8
    if cell.all (fun b => b.isSome) then
      let w := leNat (cell.map (fun b => b.getD 0))
      let g := w / 2 ^ 32
      if g = 0xFFFFFFFF ∨ g < e.base ∨ e.base + e.length ≤ g then acc
      else
        let k := g - e.base
        acc.store (32 * unit + 61440 * (k / 480) + 4 * (k % 480)) ((leBytes 4 (w % 2 ^ 32)).map some)
    else acc) t

/-- The scratchpad bytes of a use's landing buffer: 32 × Units, or a row of lanes for every 480 entries of a scatter landing
(R363). -/
def landingSize (te : Option TEntry) (u : Recv) : Nat :=
  match te with
  | some e => if e.mode = 2 then 61440 * ceilDiv e.length 480 else 32 * u.units
  | none => 32 * u.units

/-- The landing buffers of two uses share scratchpad (R80). -/
def landingsMeet (tu tv : Option TEntry) (u v : Recv) : Bool :=
  decide (32 * u.address < 32 * v.address + landingSize tv v) && decide (32 * v.address < 32 * u.address + landingSize tu u)

/-- The transfer entry of a use (R361). -/
def State.useEntry (s : State) (j : Job) (u : Recv) : Option TEntry :=
  (tEntries (u.unit == 7) (s.jobSection j (if u.unit = 7 then 4 else 3))).find? (fun e => e.entry == u.entry && e.receive)

/-- What has come for a use and has not landed lands (R363): among the landings of the cycle before the delivery cycle, which come
before that cycle's stores and drains (R155), and what comes in the delivery cycle itself at the delivery. -/
def landUse (s : State) (o : Op) (rid : Nat) : State :=
  match s.job o.job with
  | none => s
  | some j =>
    match j.live.bind (fun r => r.recvs.find? (fun u => u.id == rid && !u.done)) with
    | none => s
    | some u =>
      -- the results of a receive whose check failed are unspecified (R67, log 10)
      let bs := if o.spoiled then u.bytes.zipIdx.map (fun e => e.1.map (fun _ => (Config.freeBits (s.draws + e.2)).setWidth 8))
        else u.bytes
      let s1 := ({ s with draws := s.draws + (if o.spoiled then bs.length else 0) }).updTile u.tile (fun t =>
        match s.useEntry j u with
        | some e => if e.mode = 2 then scatter t e u.address bs else t.store (32 * u.address) bs
        | none => t)
      s1.updRun o.job (fun x => { x with recvs := x.recvs.map (fun v =>
        if v.id = rid then { v with landed := v.got.map (fun e => e.1) } else v) })

/-- The delivery cycle of a use (R347, R363): the data has landed, and either the set entry becomes READY or the fault is
raised. -/
def doDeliver (s00 : State) (o : Op) (rid : Nat) (entry : Option Nat) : State × Bool :=
  let s := landUse s00 o rid
  match s.job o.job with
  | none => (s, false)
  | some j =>
    match j.live with
    | none => (s, false)
    | some r =>
      match r.recvs.find? (fun u => u.id == rid && !u.done) with
      | none => (s, false)
      | some u =>
        let te := s.useEntry j u
        let s1 := s.trace o.job 1 (dieOf u.tile) u.tile u.unit u.entry 2 [b2n u.complete, b2n u.lossSeen]
        let s2 := s1.updRun o.job (fun x => { x with recvs := x.recvs.map (fun v => if v.id = rid then { v with done := true } else v) })
        let err := u.lossSeen || o.status == .uncorrectable
        let w : Where := { die := dieOf (j.imageTile u.tile), unit := u.unit,
                           object := if u.unit = 7 then (te.map (fun e => e.link)).getD 0 else u.entry }
        let s3 := if r.recvs.any (fun v => v.done && v.delivery == u.delivery && v.tile == u.tile && landingsMeet te (s.useEntry j v) u v)
          then s2.raise o.job 0x0C u.delivery w else s2
        if u.complete && !(o.status == .uncorrectable) then (s3, entry.isSome)
        else (s3.raise o.job (if err then 0x05 else 0x04) u.delivery w, false)

/-! ### Sync arrives (R74, R475) -/

/-- An arrive counts at its object (R74): an arrival after its barrier's beat is a fault. Nothing reaches a lost die (R18). -/
def doArrive (s : State) (jid object amount die at_ : Nat) : State :=
  match s.job jid with
  | none => s
  | some j =>
    match j.live.filter (fun _ => !s.lostDies.contains die) with
    | none => s
    | some _ =>
      let x := SMap.getD {} j.sync object
      let s1 := s.setJob jid { j with sync := SMap.set j.sync object { x with count := x.count + amount } }
      match (syncDecls (s.jobSection j 7))[object]? with
      | none => s1
      | some dcl =>
        if x.beaten && !dcl.counter then s1.raise jid 0x06 at_ { die := die, unit := 9, object := object } else s1

/-- The commit object of a job's training map, if its body has one (R229, R230). -/
def State.commitObject (s : State) (j : Job) : Option Nat :=
  let map := s.jobConstant j 3
  if map.isEmpty then none else some (leAt map 0x20 4)

/-- An arrive on the commit object by a tile of the job is the module's seal arrival (R391). -/
def noteSeal (s : State) (jid obj : Nat) : State :=
  match (s.job jid).bind s.commitObject with
  | some c => if c = obj then s.updRun jid (fun r => { r with sealed := true }) else s
  | none => s

/-- Arrives of classes 0x80 to 0x82 (R475). -/
def issueArrive (s0 : State) (o : Op) (cls : Nat) (d : Desc) : State :=
  let obj := fld d 47 34
  let s := noteSeal { s0 with draws := s0.draws + b2n o.spoiled } o.job obj
  let amt := if o.spoiled then bitsOf (Config.freeBits s0.draws).toNat 13 0 else fld d 33 20
  if cls = 0x82 then
    match s.job o.job with
    | none => s
    | some j =>
      let dest := fld d 16 7 * 128 + fld d 19 17 * 16 + 15
      let bound := (boundOf (s.jobSection j 4) (fld d 6 1)).getD 0
      let f : Flit := { type := 7, job := o.job, dest := dest, last := true, stamp := o.issued + bound + 16,
                        payload := fitTo 0 240 (leBytes 2 obj ++ leBytes 2 amt) }
      let r := queueFlits s (s.part j.part) j.part (fld d 6 1) o.issued o.id [f]
      if r.2 then r.1 else missGrant s o.tile
  else
    let die := if cls = 0x80 then dieOf o.tile else fld d 19 17
    s.emit o (o.issued + (if cls = 0x80 then 16 else 48)) phaseResult (.arrive o.job obj amt die)

end Sys2Proof.Machine
end

