-- ==== Sys2Proof/Machine/Screed.lean ====
section
/-!
DEFINITION. Sys2Proof/Machine/Screed.lean: the exact gradient reduction (R242 to R268, R477): the issues of unit 8, the
residual stores, the packets, and what a home does with a packet and at a close.
-/
namespace Sys2Proof.Machine

/-! ### The sending side -/

/-- The send entry an issue names (R250). -/
def State.sendEntry (s : State) (j : Job) (tile send : Nat) : Option SendEntry :=
  (sendEntries (s.jobSection j 5)).find? (fun e => e.tile == j.imageTile tile && e.send == send)

/-- A bucket's entry in the running body (R245). -/
def State.bucketEntry (s : State) (j : Job) (b : Nat) : Option BucketEntry :=
  (bucketEntries (s.jobSection j 5)).find? (fun e => e.bucket == b)

/-- 2,048 elements of a contribution (R252): S8 or S16. -/
def contribution (fmt : Nat) (bs : List Byte) : List Int :=
  (List.range 2048).map (fun i => if fmt = 0 then sextNat 8 (byteAt bs i) else sextNat 16 (leAt bs (2 * i) 2))

/-- An element counts as saturated (R253). -/
def contribSat (fmt : Nat) (x : Int) : Bool := decide ((if fmt = 0 then 127 else 32767) ≤ x.natAbs)

/-- The listed latency of a Screed issue (R71): the die-to-die class of its packet for another die, the link's bound
for another module. -/
def screedLatency (s : State) (j : Job) (tile cls : Nat) (e : SendEntry) (units : Nat) : Nat :=
  match cls with
  | 0x70 => 360
  | 0x71 =>
    let home := ((s.bucketEntry j e.bucket).map (fun b => b.die)).getD 0
    360 + dieLatency (if twoHops s.lostDies (dieOf tile) home then 0x51 else 0x50) units
  | _ => 360 + (boundOf (s.jobSection j 4) e.link).getD 0

/-- Scratchpad units of a packet with its header (R252). -/
def packetUnits (payload : Nat) : Nat :=
  1 + (match payload with | 0 => 64 | 1 => 128 | 2 => 256 | _ => 128)

/-- The header of a packet from a tile (R252). -/
def packetOf (s : State) (j : Job) (jid tile : Nat) (e : SendEntry) (part payload : Nat) (exponent : Int) : Packet :=
  let img := j.imageTile tile
  let b := s.bucketEntry j e.bucket
  { job := jid, bucket := e.bucket, payload := payload, step := (j.run.map (fun r => r.number)).getD 0,
    count := if payload = 3 then 512 else 2048, module := s.moduleNumber, die := dieOf img, tile := img % 12, part := part,
    exponent := (BitVec.ofInt 8 exponent).toNat, attempt := j.attempt % 65536,
    controller := (b.map (fun x => x.ctl)).getD 0 }

/-- The 32 header bytes of a packet (R252). -/
def Packet.header (p : Packet) (offset : Nat) : List Byte :=
  leBytes 32 (packMsb [(12, p.job), (16, p.bucket), (2, p.payload), (1, b2n p.sat), (1, 0), (48, p.step), (24, offset),
    (12, p.count), (24, p.nan), (10, p.module), (3, p.die), (4, p.tile), (12, p.part), (8, p.exponent), (16, p.attempt),
    (2, p.controller), (61, 0)])

/-- The payload bytes of a packet (R252). -/
def Packet.payloadBytes (p : Packet) : List Byte :=
  match p.payload with
  | 0 => p.vals.map (fun v => BitVec.ofInt 8 v.2)
  | 1 => p.vals.flatMap (fun v => leBytes 2 (BitVec.ofInt 16 v.2).toNat)
  | 2 => p.vals.flatMap (fun v => leBytes 4 (BitVec.ofInt 32 v.2).toNat)
  | _ => (fitTo (0xFFFFFFFF * 2 ^ 32) 512 (p.vals.map (fun v => v.1 * 2 ^ 32 + (BitVec.ofInt 32 v.2).toNat))).flatMap
      (leBytes 8)

/-- A packet from its bytes (R252): padding entries dropped. -/
def packetFrom (bs : List Byte) : Packet :=
  let w := leAt bs 0 32
  let pl := bitsOf w 227 226
  let off := bitsOf w 175 152
  let n := bitsOf w 151 140
  let body := bs.drop 32
  let vals : List (Nat × Int) :=
    match pl with
    | 0 => (List.range n).map (fun i => (off + i, sextNat 8 (byteAt body i)))
    | 1 => (List.range n).map (fun i => (off + i, sextNat 16 (leAt body (2 * i) 2)))
    | 2 => (List.range n).map (fun i => (off + i, sextNat 32 (leAt body (4 * i) 4)))
    | _ => ((List.range n).map (fun i => (leAt body (8 * i + 4) 4, sextNat 32 (leAt body (8 * i) 4)))).filter
        (fun e => e.1 != 0xFFFFFFFF)
  { job := bitsOf w 255 244, bucket := bitsOf w 243 228, payload := pl, sat := bitOf w 225, step := bitsOf w 223 176,
    count := n, nan := bitsOf w 139 116, module := bitsOf w 115 106, die := bitsOf w 105 103, tile := bitsOf w 102 99,
    part := bitsOf w 98 87, exponent := bitsOf w 86 79, attempt := bitsOf w 78 63, controller := bitsOf w 62 61,
    vals := vals }

/-- The place of a packet among the works of one cycle: after the rest, by its die, tile and part (R54, R260). -/
def Packet.order (p : Packet) (n : Nat) : Nat :=
  2 ^ 64 + ((16 * p.die + p.tile) * 4096 + p.part) * 2 ^ 48 + n

/-- A packet on its way to a home of this module. Packets that arrive in one cycle are taken by their die, tile and part
(R54, R260). -/
def State.emitPacket (s : State) (o : Op) (due : Nat) (p : Packet) (die : Nat) : State :=
  { s.enqueue { o with due := due, phase := phaseMem, act := .packet p die, seq := p.order s.opSeq } with opSeq := s.opSeq + 1 }

/-- A packet of an issue whose check failed holds unspecified values (R67, log 10). -/
def Packet.spoil (draws : Nat) (p : Packet) : Packet :=
  { p with
    sat := bitOf (Config.freeBits (draws + p.vals.length)).toNat 0
    nan := bitsOf (Config.freeBits (draws + p.vals.length + 1)).toNat 23 0
    vals := p.vals.zipIdx.map (fun v =>
      (v.1.1, sextNat (match p.payload with | 0 => 8 | 1 => 16 | _ => 32) (Config.freeBits (draws + v.2)).toNat)) }

/-- Carries a packet: to a home on this module at its due cycle, or as flits on the send's link (R251). -/
def carryPacket (s : State) (o : Op) (cls : Nat) (e : SendEntry) (p : Packet) (offset due ready : Nat) : State :=
  match s.job o.job with
  | none => s
  | some j =>
    let b := s.bucketEntry j e.bucket
    let die := (b.map (fun x => x.die)).getD 0
    if cls = 0x72 then
      let dest := ((b.map (fun x => x.module)).getD 0) * 128 + die * 16 + 15
      let r := queueFlits s (s.part j.part) j.part e.link ready o.id
        (flitsOf o.job dest 0 (p.header offset ++ p.payloadBytes))
      if r.2 then r.1 else missGrant s o.tile
    else s.emitPacket o due p die

/-- Sends a packet; a send whose check failed carries unspecified values (R67, R251). -/
def sendPacket (s : State) (o : Op) (cls : Nat) (e : SendEntry) (p : Packet) (offset due ready : Nat) : State :=
  if o.spoiled then
    carryPacket { s with draws := s.draws + p.vals.length + 2 } o cls e (p.spoil s.draws) offset due ready
  else carryPacket s o cls e p offset due ready

/-- Bytes a part's payload occupies in scratchpad, and the NaN count of the status word that follows (R253). -/
def partNan (t : Tile) (e : SendEntry) (addr bytes : Nat) : Nat :=
  if e.status then bitsOf (Mem.num t.scratch (32 * addr + bytes) 8) 31 8 else 0

/-- Window offset of buffer b of a residual store (R254). -/
def bufferAt (e : SendEntry) (b : Nat) : Nat := 32 * (e.residual + b * (1 + e.elements / 8))

/-- Window offset of a part's values in buffer b (R254). -/
def residAt (e : SendEntry) (b part : Nat) : Nat := bufferAt e b + 32 + 8192 * part

/-- Where a residual access in the window and in the grant goes: its die address and its controller (R160, R323, R477). -/
def residPlace (s : State) (j : Job) (tile off arrival : Nat) : Option (Nat × Nat) :=
  let p := s.part j.part
  match p.windowAddr (dieOf tile) false off 8192 with
  | some a => if slotsGranted p.grant1 false arrival 16 then some (a, s.ctlOf (dieOf tile) false a) else none
  | none => none

/-- A residual access at a place found, or at none, put on the event list. -/
def State.placedAccess (s : State) (at_ : Option (Nat × Nat)) (o : Op) (j : Job) (arrival : Nat) (act : Act) : State :=
  match at_ with
  | some x =>
    s.access { o with act := act, ctl := some x.2 } (s.part j.part) j.part x.2 (s.part j.part).grant1 false arrival 16
  | none => s.emit o arrival phaseMem act

/-- A residual access put on the event list at its arrival; that of a pooled partition claims its 16 slots (R324, R477). -/
def State.residAccess (s : State) (o : Op) (j : Job) (off arrival : Nat) (act : Act) : State :=
  s.placedAccess (residPlace s j o.tile off arrival) o j arrival act

/-- A Screed issue (classes 0x70 to 0x72, R251). Answers its latency. -/
def issueScreed (s : State) (o : Op) (cls : Nat) (d : Desc) : State × Nat :=
  match s.job o.job with
  | none => (s, 360)
  | some j =>
    match s.sendEntry j o.tile (fld d 27 14) with
    | none => (s, 360)
    | some e =>
      let t := s.tile o.tile
      let addr := fld d 47 28
      let kind := fld d 13 12
      let part := fld d 11 0
      let sel := match s.bucketEntry j e.bucket with
        | some b => s.selection j b.selector
        | none => (0, 0)
      let bytes := if sel.1 = 0 then 2048 else 4096
      let nan := partNan t e addr bytes
      let pl := t.bytes addr bytes
      if kind = 0 ∧ e.mode = 0 then
        let xs := contribution sel.1 pl
        let lat := screedLatency s j o.tile cls e (packetUnits sel.1)
        let off := e.offset + 2048 * part
        let p := { packetOf s j o.job o.tile e part sel.1 sel.2 with
          sat := xs.any (contribSat sel.1), nan := nan, vals := xs.zipIdx.map (fun v => (off + v.2, v.1)) }
        (sendPacket s o cls e p off (o.issued + lat) o.issued, lat)
      else if kind = 0 ∧ e.mode = 2 then
        let ws := (List.range 512).map (fun i => Mem.num t.scratch (32 * e.list + 4096 * part + 8 * i) 8)
        let vals := (ws.filter (fun w => w / 2 ^ 32 != 0xFFFFFFFF)).map (fun w => (w / 2 ^ 32, sextNat 32 w))
        let run := SMap.getD {} t.sends e.send
        let lat := screedLatency s j o.tile cls e (packetUnits 3)
        let p := { packetOf s j o.job o.tile e part 3 sel.2 with
          sat := part == 0 && run.sat, nan := if part = 0 then run.nan else 0, vals := vals }
        let s1 := s.updRun o.job (fun r => { r with red := { r.red with
          selected := r.red.selected + vals.length, padding := r.red.padding + (512 - vals.length) } })
        (sendPacket s1 o cls e p 0 (o.issued + lat) o.issued, lat)
      else
        let lat := if kind = 0 ∧ e.mode = 3 then screedLatency s j o.tile cls e (packetUnits 2) else 360
        (s.residAccess o j (residAt e (if kind = 2 then 1 - j.beats % 2 else j.beats % 2) part) (o.issued + 24)
          (.residRead e.send part kind pl nan), lat)

/-- The residual of one element brought to exponent e: the value, and whether it was clipped (R255). -/
def residAdd (er : Nat) (e : Int) (x r : Int) : Int × Bool :=
  let sh := coarseByte er - e
  let big := if 0 ≤ sh then r * 2 ^ sh.toNat else r / 2 ^ (-sh).toNat
  let r1 := if er = 0x80 then 0 else satInt 32 big
  let t := satInt 32 (x + r1)
  (t, (er != 0x80 && satHit 32 big) || satHit 32 (x + r1))
where
  /-- The exponent byte of a residual header (R254). -/
  coarseByte (b : Nat) : Int := sextNat 8 b

/-- The header bytes of a residual buffer (R254). -/
def residHeader (er nan : Nat) (sat : Bool) : List Byte :=
  leBytes 4 er ++ leBytes 4 nan ++ leBytes 24 (b2n sat)

/-- S32 values as bytes. -/
def s32Bytes (xs : List Int) : List Byte := xs.flatMap (fun v => leBytes 4 (BitVec.ofInt 32 v).toNat)

/-- The cut of a thin send's select part 0 (R256). -/
def censusCut (census : SMap Nat) (k : Nat) : Nat :=
  let above (b : Nat) : Nat := (List.range (33 - b)).foldl (fun a i => a + SMap.getD 0 census (b + i)) 0
  (List.range 32).foldl (fun (acc : Nat × Bool) i =>
    let b := 32 - i
    if acc.2 && decide (above b ≤ k) then (b, true) else (acc.1, false)) (33, true) |>.1

/-- A residual access that is not performed is counted, the read and the write each: a window miss (R160), or one outside the grant (R323). -/
def missResid (s : State) (tile : Nat) (window : Bool) : State :=
  if window then s.updTile tile (fun t => { t with misses := t.misses + 1 }) else missGrant s tile

/-- The residual read of a hold, flush, census or select part, with everything that follows from it (R255, R256,
R477). -/
def doResidRead (s : State) (o : Op) (cls send part kind : Nat) (payload : List Byte) (nan : Nat) : State :=
  match s.job o.job with
  | none => s
  | some j =>
    match s.sendEntry j o.tile send, j.live with
    | some e, some _ =>
      let t := s.tile o.tile
      let rb := j.beats % 2
      let wb := 1 - rb
      let win (b : Nat) : Option Nat := (s.part j.part).windowAddr (dieOf o.tile) false (residAt e b part) 8192
      -- an access that was placed at its issue names its controller
      let src := if o.ctl.isSome then win (if kind = 2 then wb else rb) else none
      let bad := o.status == .uncorrectable
      let vals := match src with
        | some a => (List.range 2048).map (fun i =>
            sextNat 32 (if bad then (Config.freeBits (s.draws + i)).toNat
              else leAt (s.readDie (dieOf o.tile) false [] a 8192) (4 * i) 4))
        | none => List.replicate 2048 0
      let hd := match src with
        | some a => s.readDie (dieOf o.tile) false [] (a - 32 - 8192 * part) 32
        | none => List.replicate 32 0
      let wPlace := residPlace s j o.tile (residAt e wb part) (o.issued + 200)
      let wAddr := ((wPlace.map (fun x => x.1)).getD 0)
      let s00 : State := match o.ctl with
        | some c => { s.setOpCtl o.id c with draws := s.draws + (if bad then 2048 else 0) }
        | none => s
      let s01 := if src.isNone then missResid s00 o.tile (win (if kind = 2 then wb else rb)).isNone else s00
      let s0 := if wPlace.isNone then missResid s01 o.tile (win wb).isNone else s01
      let write (st : State) (xs : List Int) (h : List Byte) : State :=
        st.residAccess o j (residAt e wb part) (o.issued + 200)
          (.residWrite wAddr (s32Bytes xs) (wAddr - 32 - 8192 * part) h wPlace.isSome)
      let run := SMap.getD {} t.sends send
      if kind = 2 then
        let k := e.elements / 2 ^ e.ratio
        let run1 := if part = 0 then { run with cut := censusCut t.census k, listed := 0 } else run
        let off := e.offset + 2048 * part
        let picked := (vals.zipIdx.filter (fun v => decide (run1.cut ≤ bitLen v.1.natAbs))).map (fun v => (off + v.2, v.1))
        let keep := vals.map (fun v => if run1.cut ≤ bitLen v.natAbs then 0 else v)
        let pad := (List.replicate (512 * ceilDiv k 512) (0xFFFFFFFF * 2 ^ 32)).flatMap (leBytes 8)
        let s1 := s0.updTile o.tile (fun x => { x with
          sends := SMap.set x.sends send { run1 with listed := run1.listed + picked.length } })
        let s2 := if part = 0 then s1.emit o (o.issued + 200) phaseStore (.write (32 * e.list) (pad.map some)) else s1
        let rows := picked.flatMap (fun v => leBytes 8 (v.1 * 2 ^ 32 + (BitVec.ofInt 32 v.2).toNat))
        write (s2.emit o (o.issued + 200) phaseStore (.write (32 * e.list + 8 * run1.listed) (rows.map some))) keep hd
      else
        let sel := match s.bucketEntry j e.bucket with
          | some b => s.selection j b.selector
          | none => (0, 0)
        let er := byteAt hd 0
        let xs := contribution sel.1 payload
        let ts := List.zipWith (residAdd er sel.2) xs vals
        let clips := (ts.filter (fun v => v.2)).length
        let sat := xs.any (contribSat sel.1) || clips != 0
        let e8 := (BitVec.ofInt 8 sel.2).toNat
        let out := ts.map (fun v => v.1)
        let readNan := leAt hd 4 4
        let readSat := bitOf (byteAt hd 8) 0
        let s1 := s0.updRun o.job (fun r => { r with red := { r.red with clips := satNat 32 (r.red.clips + clips) } })
        let setRun (st : State) (r : SendRun) : State :=
          st.updTile o.tile (fun x => { x with sends := SMap.set x.sends send r })
        if kind = 1 then
          let cen := if part = 0 then [] else t.census
          let cen1 := out.foldl (fun m v => SMap.upd 0 m (bitLen v.natAbs) (fun n => n + 1)) cen
          let run1 := { run with nan := run.nan + nan, sat := run.sat || sat }
          let s2 := setRun (s1.updTile o.tile (fun x => { x with census := cen1 })) run1
          write s2 out (residHeader e8 0 false)
        else if e.mode = 1 then
          let run1 : SendRun := if run.started then { run with nan := run.nan + nan, sat := run.sat || sat }
            else { run with started := true, nan := readNan + nan, sat := readSat || sat }
          write (setRun s1 run1) out (residHeader e8 run1.nan run1.sat)
        else
          let first := !run.started
          let off := e.offset + 2048 * part
          let p := { packetOf s j o.job o.tile e part 2 sel.2 with
            sat := sat || (first && readSat), nan := nan + (if first then readNan else 0),
            vals := out.zipIdx.map (fun v => (off + v.2, v.1)) }
          let lat := screedLatency s j o.tile cls e (packetUnits 2)
          let s2 := sendPacket (setRun s1 { run with started := true }) o cls e p off (o.issued + lat) s.now
          write s2 (List.replicate 2048 0) (residHeader e8 0 false)
    | _, _ => s

/-- The residual write (R477). After an uncorrectable error the bytes may or may not be stored (R168). -/
def doResidWrite (s : State) (o : Op) (addr : Nat) (bs : List Byte) (hdr : Nat) (h : List Byte) (live : Bool) : State :=
  let put (st : State) : State := (st.writeDie (dieOf o.tile) false [] addr bs).writeDie (dieOf o.tile) false [] hdr h
  if !live then s
  else if o.status = .uncorrectable then
    let r := s.draw
    if bitOf r.1.toNat 0 then put r.2 else r.2
  else put s

/-! ### The home (R249, R257 to R264) -/

/-- The current tag of a job (R244). -/
def Job.tag (j : Job) : Nat := j.attempt % 65536

/-- The die address of a bucket's accumulators (R242). -/
def accAddr (s : State) (j : Job) (b : BucketEntry) : Option Nat :=
  (s.part j.part).windowAddr b.die false (32 * b.acc) (8 * b.elements)

/-- One accumulator: its value under the current tag (R243, R244). -/
def accValue (tag : Nat) (w : Nat) : Int := if bitsOf w 63 48 = tag then sextNat 48 w else 0

/-- An accumulator's bytes (R243). -/
def accBytes (tag : Nat) (v : Int) : List Byte := leBytes 8 (tag * 2 ^ 48 + (BitVec.ofInt 48 v).toNat)

/-- A home's accesses of a partition are performed: the partition's grant has slots for them (R323, log 96). -/
def homeSlots (s : State) (pid : Nat) : Bool := (s.part pid).grant1 != 0

/-- Adds the values of a packet to its bucket's accumulators (R257). -/
def addValues (s : State) (die base tag : Nat) (vals : List (Nat × Int)) : State :=
  let m := vals.foldl (fun m v =>
    let a := base + 8 * v.1
    Mem.write m a (accBytes tag (accValue tag (Mem.num m a 8) + v.2))) (SMap.getD [] s.tier1 die)
  { s with tier1 := SMap.set s.tier1 die m }

/-- A packet counted into its bucket's close (R257). -/
def BucketRun.take (b : BucketRun) (p : Packet) (carried : Bool) : BucketRun :=
  { b with nan := b.nan + p.nan, sat := b.sat || p.sat, packets := b.packets + (if carried then 0 else 1),
           carried := b.carried + (if carried then 1 else 0),
           exponent := if carried then b.exponent else some (sextNat 8 p.exponent) }

/-- The fate record of a packet (R264). -/
def fateOf (p : Packet) (fate : Nat) : Fate :=
  { step := p.step, fate := fate, bucket := p.bucket, module := p.module, die := p.die, tile := p.tile, part := p.part }

/-- A fate recorded, with the packet counted as dropped unless it was carried (R264, R268). -/
def addFate (s : State) (jid : Nat) (p : Packet) (fate : Nat) : State :=
  s.updRun jid (fun r => { r with fates := r.fates ++ [fateOf p fate],
                                  red := if fate = 1 then r.red else { r.red with dropped := r.red.dropped + 1 } })

/-- The close beat of a bucket in a step: none where its class does not close it (R259). -/
def closeBeat (r : StepRun) (b : BucketEntry) : Option Nat :=
  if b.cls = 0xFF ∨ b.cls = r.cls then some (r.start + b.close + b.grace) else none

/-- The order of a carry queue (R54, R260): arrival, then module, die, tile and part. -/
def Packet.before (a b : Packet) : Bool :=
  let key (p : Packet) : Nat := (((p.arrived * 1024 + p.module) * 8 + p.die) * 16 + p.tile) * 4096 + p.part
  decide (key a < key b)

/-- A late packet where no place of the job's quota is free (R260): packets of one cycle are queued in the tie order of R54, so it takes
the place of the last of them that comes after it; else it is dropped. -/
def queueFull (s : State) (c : Nat) (p : Packet) (at_ : Nat) : State :=
  let q0 : Packet := { p with arrived := at_ }
  match ((s.ctl c).carry.filter (fun q => q.job == p.job && q.arrived == at_ && q0.before q)).getLast? with
  | some q => addFate (s.updCtl c (fun x => { x with carry := insertBy Packet.before q0 (x.carry.filter (fun y => y != q)) })) p.job q 4
  | none => addFate s p.job p 4

/-- A packet at controller Controller of a die, at a stamp (R249, R257, R260). `forced` is the fate that a replay
takes from the original record (R265). -/
def packetArrive (s : State) (p : Packet) (die at_ : Nat) (forced : Option Nat) : State :=
  let c := 4 * die + p.controller
  match SMap.find (s.ctl c).own p.job, s.job p.job with
  | none, _ =>
    (s.updCtl c (fun x => { x with foreign := x.foreign + 1 })).updRun p.job (fun r =>
      { r with red := { r.red with foreign := satNat 16 (r.red.foreign + 1) } })
  | some _, none => s.updCtl c (fun x => { x with foreign := x.foreign + 1 })
  | some own, some j =>
    let bad := s.raise p.job 0x0B at_ { die := die, unit := 8, object := p.bucket }
    match s.bucketEntry j p.bucket with
    | none => bad
    | some b =>
      let mib := 2 ^ 20
      if !b.homed || b.die != die || b.ctl != p.controller || decide (32 * b.acc < own.base * mib)
          || decide ((own.base + own.length) * mib < 32 * b.acc + 8 * b.elements)
          || p.vals.any (fun v => decide (b.elements ≤ v.1)) then bad
      else
        let onTime := match forced with
          | some _ => false
          | none =>
            p.attempt == j.tag && !j.voided && (match j.live with
              | some r =>
                (match closeBeat r b with
                 | some t => decide (at_ ≤ t)
                 | none => true) && !(SMap.getD ({} : BucketRun) r.homes p.bucket).closed
              | none => false)
        if onTime then
          match accAddr s j b with
          | none => s
          | some a =>
            (if homeSlots s own.part then addValues s die a j.tag p.vals else s).updRun p.job (fun r =>
              { r with homes := SMap.upd ({} : BucketRun) r.homes p.bucket (fun x => x.take p false),
                       red := { r.red with accepted := r.red.accepted + 1 } })
        else
          let ctl := s.ctl c
          -- places of packets that a close has consumed stay taken until the step's commit beat (R260)
          let held := ((j.live.bind (fun r => if r.freed then none else SMap.find r.queues c)).getD []).filter (fun q => !ctl.carry.contains q)
          let used := ((ctl.carry ++ held).filter (fun q => q.job == p.job)).length
          if forced = some 4 then addFate s p.job p 4
          else if forced = some 5 ∨ (forced = none ∧ (p.attempt ≠ j.tag ∨ j.voided = true)) then addFate s p.job p 5
          else if used < own.quota ∨ forced.isSome then
            s.updCtl c (fun x => { x with carry := insertBy Packet.before { p with arrived := at_ } x.carry })
          else queueFull s c p at_

/-- The fate that a replay gives a packet, from the original records (R265, R398). -/
def forcedFate (s : State) (p : Packet) : Option Nat :=
  match (s.job p.job).bind (fun j => j.live) with
  | none => none
  | some r => (r.forced.find? (fun f => fateOf p f.2.fate == f.2)).map (fun f => f.2.fate)

/-- What a close of a step does with a queued packet: none where it leaves it in the queue. In a replay a packet with a recorded fate
meets it at the close of the step whose record holds it (R260, R265). -/
def queuedFate (r : StepRun) (p : Packet) (byRule : Nat) : Option Nat :=
  match r.forced.find? (fun f => fateOf p f.2.fate == f.2) with
  | some f => if f.1 = r.number then some f.2.fate else none
  | none => some byRule

/-- A packet reaches a home in a replayed step after its close although the original record treats it as on time: the
step diverges (R398). -/
def noteDiverged (s : State) (p : Packet) : State :=
  match s.job p.job with
  | none => s
  | some j =>
    if j.replayRun.isSome && (forcedFate s p).isNone then
      s.updRun p.job (fun r => { r with
        diverged := r.diverged || (SMap.getD ({} : BucketRun) r.homes p.bucket).closed })
    else s

/-- A packet reaches a controller, from this module or another (R257, R265, R398). -/
def packetLand (s : State) (p : Packet) (die at_ : Nat) : State := packetArrive (noteDiverged s p) p die at_ (forcedFate s p)

/-- A carried packet's decision at a close (R260): 1 carried, 2 too old, 3 exponent. -/
def carryFate (b : BucketEntry) (step : Nat) (e : Option Int) (p : Packet) : Nat :=
  if b.carryLimit < step - p.step then 2
  else if e = some (sextNat 8 p.exponent) then 1 else 3

/-- Where a bucket's g goes: the die address of its first element's g in the set that the next commit commits
(R230, R261, R262). -/
def gradAddr (s : State) (j : Job) (b : BucketEntry) (update : Bool) : Option Nat :=
  match (paramEntries (s.jobConstant j 3)).find? (fun e => e.tensor == b.tensor && e.owner && e.die == b.die
      && decide (e.first ≤ b.element) && decide (b.element + b.elements ≤ e.first + e.elements)) with
  | none => none
  | some e =>
    let shadowIsX := j.selector
    let set := if update == shadowIsX then e.setX else e.setY
    (s.part j.part).windowAddr b.die true (32 * set + 12 * e.elements + 4 * (b.element - e.first)) (4 * b.elements)

/-- The values a close delivers: the peak, the overflows replaced, g and the cleared accumulators (R261). -/
def closeValues (tag : Nat) (e : Int) (d : Int) (area : List Byte) (n : Nat) : Nat × Nat × List Byte × List Byte :=
  let vs := (List.range n).map (fun i => accValue tag (leAt area (8 * i) 8))
  let ys := vs.map (fun v => drainFp32 v (e + d))
  (vs.foldl (fun m v => max m v.natAbs) 0, (ys.filter (fun y => isInf y.bits)).length,
   ys.flatMap (fun y => leBytes 4 (if isInf y.bits then 0 else y.bits.toNat)),
   (List.replicate n ()).flatMap (fun _ => accBytes tag 0))

/-- The peak exponent of a close (R261). -/
def peakOf (peak : Nat) (e : Int) : Int :=
  if peak = 0 then -128 else clampInt (-127) 127 ((bitLen peak : Int) - 1 + e)

/-- The close of a bucket at its close beat (R261, R262). Where an access of it meets an error that no layer corrects, what it reads
is free (R168, log 10) and TRANSFER_ERROR is raised at the home (R169, R476). Accesses that find no slot in the partition's grants are
not performed: reads land zeros and writes change nothing (R323). -/
def closeBucket (s0 : State) (jid bucket : Nat) (errors : List MemError) : State :=
  let bad := anyLost errors
  let s := countAll s0 errors
  match s.job jid with
  | none => s
  | some j =>
    match j.live, s.bucketEntry j bucket with
    | some r, some b =>
      let c := 4 * b.die + b.ctl
      let mine (q : Packet) : Bool := q.job == jid && q.bucket == bucket && (queuedFate r q 1).isSome
      let queued := (s.ctl c).carry.filter mine
      let home := SMap.getD ({} : BucketRun) r.homes bucket
      let newest := queued.foldl (fun a q => max a q.step) 0
      let e : Option Int := match home.exponent with
        | some x => some x
        | none => (queued.reverse.find? (fun q => q.step == newest)).map (fun q => sextNat 8 q.exponent)
      let s1 := s.updRun jid (fun x => { x with
        queues := (match SMap.find x.queues c with | some _ => x.queues | none => SMap.set x.queues c (s.ctl c).carry) })
      let s2 := s1.updCtl c (fun x => { x with carry := x.carry.filter (fun q => !mine q) })
      let s3 := queued.foldl (fun (st : State) q =>
        let f := (queuedFate r q (carryFate b r.number e q)).getD 0
        let st1 := addFate st jid q f
        if f = 1 then
          match accAddr st1 j b with
          | some a => (if homeSlots st1 j.part then addValues st1 b.die a j.tag q.vals else st1).updRun jid (fun x =>
              { x with homes := SMap.upd ({} : BucketRun) x.homes bucket (fun y => y.take q true),
                       red := { x.red with carried := satNat 16 (x.red.carried + 1) } })
          | none => st1
        else st1) s2
      match accAddr s3 j b with
      | none => s3
      | some a =>
        let n := 8 * b.elements
        let area := if bad then freeBytes s3.draws n
          else if homeSlots s3 j.part then s3.readDie b.die false [] a n else List.replicate n 0
        let v := closeValues j.tag (e.getD 0) b.adjust area b.elements
        let s3b : State := { s3 with draws := s3.draws + (if bad then n else 0) }
        let s4 := if homeSlots s3 j.part then s3b.writeDie b.die false [] a v.2.2.2 else s3b
        let s5 := match gradAddr s4 j b r.update with
          | some g => if (s4.part j.part).grant2 = 0 then s4 else s4.writeDie b.die true (s4.part j.part).keys g v.2.2.1
          | none => s4
        let s6 := if bad then s5.raise jid 0x05 s5.now { die := b.die, unit := 8, object := bucket } else s5
        (s6.trace jid 1 b.die 63 8 bucket 4 [home.nan + v.2.1, home.packets, home.carried, b2n home.sat, v.1]).updRun jid (fun x =>
          let h := SMap.getD ({} : BucketRun) x.homes bucket
          let h1 := { h with nan := h.nan + v.2.1, closed := true, peak := peakOf v.1 (e.getD 0) }
          { x with homes := SMap.set x.homes bucket h1,
                   red := { x.red with closes := x.red.closes + 1, nan := satNat 32 (x.red.nan + h1.nan) } })
    | _, _ => s

/-- The close word of a closed bucket (R263). -/
def closeWordOf (step bucket : Nat) (h : BucketRun) : CloseWord :=
  { bucket := bucket, step := step, nan := satNat 32 h.nan, packets := satNat 24 h.packets,
    carried := satNat 8 h.carried, sat := h.sat, peak := h.peak }

/-- The 16 bytes of a close word (R263). -/
def CloseWord.bytes (w : CloseWord) : List Byte :=
  leBytes 16 (packMsb [(48, w.step), (32, w.nan), (24, w.packets), (8, w.carried), (7, 0), (1, b2n w.sat),
    (8, (BitVec.ofInt 8 w.peak).toNat)])

/-- A close word from its bytes (R263). -/
def closeWordFrom (bucket : Nat) (bs : List Byte) : CloseWord :=
  let w := leAt bs 0 16
  { bucket := bucket, step := bitsOf w 127 80, nan := bitsOf w 79 48, packets := bitsOf w 47 24, carried := bitsOf w 23 16,
    sat := bitOf w 8, peak := sextNat 8 (bitsOf w 7 0) }

/-- A close word counts for the skip decision: it is of the live step, or of an earlier one since the previous update step that was
not abandoned (R266, R267). -/
def wordCounts (j : Job) (r : StepRun) (w : CloseWord) : Bool :=
  w.step == r.number || (decide (w.step < r.number) && !j.givenUp.contains w.step
    && (match j.lastUpdate with | some u => decide (u < w.step) | none => true))

/-- A close word lands: written at its tile, kept for the skip decision, and one arrival on the commit object
(R263, R266). The word of an abandoned step is discarded (R267). -/
def landCloseWord (s : State) (jid at_ : Nat) (w : CloseWord) : State :=
  match s.job jid with
  | none => s
  | some j =>
    match j.live with
    | none => s
    | some run =>
      if w.step ≠ run.number ∧ j.givenUp.contains w.step = true then s else
      let s1 := match s.bucketEntry j w.bucket with
        | some b =>
          if b.wordTile = 63 then s
          else match j.tileOf b.wordTile with
            | some t => s.updTile t (fun x => x.store (32 * b.wordUnit) (w.bytes.map some))
            | none => s
        | none => s
      let s2 := if wordCounts j run w then s1.updRun jid (fun r => { r with
          words := r.words.filter (fun x => !(x.bucket == w.bucket && x.step == w.step)) ++ [w] }) else s1
      doArrive s2 jid (leAt (s.jobConstant j 3) 0x20 4) 1 7 at_

end Sys2Proof.Machine
end

