-- ==== Sys2Proof/Machine/Rows.lean ====
section
/-!
DEFINITION. Sys2Proof/Machine/Rows.lean: the fused row functions FINIT to FCLOSE on one row of the row-state file
(R186 to R201). A segment is a list of 480 FP32 entries. A function answers the row, what it writes
to the destination registers, and its arithmetic events.
-/
namespace Sys2Proof.Machine

/-- What a fused function does. `lanes` are the first lanes of the destination group, each written or
kept; `n` is the number of registers it writes. -/
structure FusedOut where
  row : RowState
  lanes : List (Option F32) := []
  fl : FFlags := {}
  accSat : Bool := false
  /-- Entries with an invalid result (R110). -/
  bad : List Nat := []
  loss : Option (F32 × F32 × Bool × Bool) := none
  deriving DecidableEq, Repr

/-- An S32 lane. -/
def laneInt (ls : List F32) (i : Nat) : Int := (ls.getD i 0).toInt
/-- A lane as it stands. -/
def laneAt (ls : List F32) (i : Nat) : F32 := ls.getD i 0
/-- A value is read as zero (R107). -/
def fpIsZero (x : F32) : Bool := fpExp x == 0
/-- Lanes a function writes. -/
def wr (ls : List F32) : List (Option F32) := ls.map some

/-- The row's student part (R186). -/
def RowState.student (r : RowState) (s : Nat) : StudentPart := SMap.getD {} r.students s
/-- The row's loss part for a student (R186). -/
def RowState.loss (r : RowState) (s : Nat) : LossPart := SMap.getD {} r.losses s
/-- The row with a student part replaced. -/
def RowState.setStudent (r : RowState) (s : Nat) (p : StudentPart) : RowState :=
  { r with students := SMap.set r.students s p }

/-- FINIT on part 0 (R187 to R189). -/
def initTeacher (c : List F32) : TeacherPart :=
  let v := laneInt c 1
  let mode := laneInt c 3
  let mr := laneAt c 4
  let bad := !isPosNormal (laneAt c 0) || decide (v < 1) || decide (262144 < v)
    || decide (ceilDiv v.toNat 480 ≤ (laneAt c 2).toNat) || decide (mode < 0) || decide (2 < mode)
    || (mode == 1 && !(!isNan mr && fcmp 3 0 mr && fcmp 3 mr fpOne))
    || laneAt c 5 != 0 || laneAt c 6 != 0 || laneAt c 7 != 0
  { tau := laneAt c 0, v := v, first := laneInt c 2, mode := mode, mRest := mr, void := bad }

/-- FINIT on part 1 (R187 to R189). Of an Exclude lane that is neither 0 nor 1, which makes the row void, the exclude bit is set
(log 117). -/
def initStudent (c : List F32) : StudentPart :=
  let ex := laneInt c 3
  let bad := !isFinite (laneAt c 0) || !isFinite (laneAt c 1) || (ex != 0 && ex != 1)
    || laneAt c 4 != 0 || laneAt c 5 != 0 || laneAt c 6 != 0 || laneAt c 7 != 0
  { cKl := laneAt c 0, cCe := laneAt c 1, label := laneInt c 2, exclude := ex != 0, void := bad }

/-- FINIT: clears the named part and no other, and configures parts 0 and 1 (R187). -/
def rowInit (r : RowState) (part s : Nat) (c : List F32) : FusedOut :=
  { row := match part with
      | 0 => { r with teacher := initTeacher c }
      | 1 => r.setStudent s (initStudent c)
      | 2 => { r with losses := SMap.erase r.losses s }
      | _ => { r with hist := [] } }

/-- The global index of entry j at a cursor `cur` segments past the first (R188). -/
def globalIndex (t : TeacherPart) (cur j : Nat) : Int := 480 * (t.first + cur) + j

/-- The active entries of a segment, with their positions (R188). -/
def activeOf (t : TeacherPart) (cur : Nat) (seg : List F32) : List (Nat × F32) :=
  ((seg.take 480).zipIdx.map (fun e => (e.2, e.1))).filter (fun e => decide (globalIndex t cur e.1 < t.v))

/-- A z that FSTAT takes: finite and below 2^24 in magnitude (R190). -/
def zOk (x z : F32) : Bool := isFinite x && decide (fpExp z < 151)

/-- A sum under an anchor (R186). -/
structure RowSum where
  anchor : Option Int
  sum : Nat
  deriving DecidableEq, Repr

/-- The anchor raised to cover some inputs (R190). -/
def raiseAnchor (k : Option Int) (zs : List F32) : Option Int :=
  zs.foldl (fun a z =>
    let c := ceilLog2e z
    match a with
    | none => some c
    | some b => some (max b c)) k

/-- A sum shifted right by the rise of its anchor, truncating (R113, R186). -/
def shiftSum (old new : Option Int) (s : Nat) : Nat :=
  match old, new with
  | some a, some b => s / 2 ^ (b - a).toNat
  | _, _ => s

/-- FSTAT's update of one sum from its inputs (R190). A sum has 64 bits (R113, R186; log 90). -/
def statSum (rs : RowSum) (zs : List F32) : RowSum :=
  match raiseAnchor rs.anchor zs with
  | none => rs
  | some k =>
    { anchor := some k,
      sum := zs.foldl (fun s z => (s + fixTerm z k) % 2 ^ 64) (shiftSum rs.anchor (some k) rs.sum) }

/-- All events of some results. -/
def flagsOf (rs : List FRes) : FFlags := rs.foldl (fun a r => a.or r.fl) {}

/-- FSTAT on part 0 (R188, R190): no effect in mode 1. -/
def statTeacher (r : RowState) (seg : List F32) : FusedOut :=
  let t := r.teacher
  if t.mode = 1 then { row := r }
  else
    let zs := (activeOf t t.statCur seg).map (fun e => (e.2, fmul e.2 t.tau))
    let good := zs.filter (fun e => zOk e.1 e.2.bits)
    let o := statSum { anchor := t.anchor, sum := t.sum } (good.map (fun e => e.2.bits))
    let void := t.void || decide (good.length < zs.length)
    { row := { r with teacher := { t with anchor := o.anchor, sum := o.sum, void := void, statCur := t.statCur + 1 } },
      fl := if void then {} else flagsOf (zs.map (fun e => e.2)) }

/-- The label is judged against V (R189). -/
def judgeLabel (t : TeacherPart) (p : StudentPart) : StudentPart :=
  if p.label ≠ -1 ∧ ¬ p.label < t.v then { p with void := true } else p

/-- FSTAT on part 1 (R190): `tseg` holds the received probabilities in mode 1. -/
def statStudent (r : RowState) (s : Nat) (seg tseg : List F32) : FusedOut :=
  let t := r.teacher
  let p := judgeLabel t (r.student s)
  let act := activeOf t p.statCur seg
  let zs := act.map (fun e => (e.1, e.2, fmul e.2 t.tau))
  let good := zs.filter (fun e => zOk e.2.1 e.2.2.bits)
  let b := statSum { anchor := p.anchorB, sum := p.sumB } (good.map (fun e => e.2.2.bits))
  let inK := good.filter (fun e => t.mode == 1 && !fpIsZero (laneAt tseg e.1))
  let bk := match b.anchor with
    | none => p.sumBK
    | some k => inK.foldl (fun a e => (a + fixTerm e.2.2.bits k) % 2 ^ 64) (shiftSum p.anchorB b.anchor p.sumBK)
  let useC := !fpIsZero p.cCe
  let goodC := act.filter (fun e => zOk e.2 e.2)
  let c := if useC then statSum { anchor := p.anchorC, sum := p.sumC } (goodC.map (fun e => fpCanon e.2))
    else { anchor := p.anchorC, sum := p.sumC }
  let lab := act.filter (fun e => globalIndex t p.statCur e.1 == p.label)
  let void := p.void || decide (good.length < zs.length) || (useC && decide (goodC.length < act.length))
  let q := { p with anchorB := b.anchor, sumB := b.sum, sumBK := bk, anchorC := c.anchor, sumC := c.sum,
                    labelLogit := (match lab with | [] => p.labelLogit | e :: _ => e.2),
                    labelSeen := p.labelSeen || !lab.isEmpty, void := void, statCur := p.statCur + 1 }
  let inB := (if t.mode = 1 then act.foldl (fun (a : FFlags) e => a.or (fpIn (laneAt tseg e.1))) {} else {}).or (fpIn p.cCe)
  { row := r.setStudent s q, fl := if void || t.void then {} else (flagsOf (zs.map (fun e => e.2.2))).or inB }

/-- The histogram bin of an entry, when it has one (R192). -/
def binOf (t : TeacherPart) (z : F32) : Option Int :=
  match t.anchor with
  | none => none
  | some k => if isFinite z then some (histBin k z) else none

/-- FHIST (R192): no effect on a row not in mode 2. -/
def rowHist (r : RowState) (seg : List F32) : FusedOut :=
  let t := r.teacher
  if t.mode ≠ 2 then { row := r }
  else
    let zs := (activeOf t t.histCur seg).map (fun e => fmul e.2 t.tau)
    let h := zs.foldl (fun h z =>
      match binOf t z.bits with
      | some d => if 0 ≤ d ∧ d ≤ 255 then SMap.upd 0 h d.toNat (fun n => (n + 1) % 2 ^ 32) else h
      | none => h) r.hist
    { row := { r with hist := h, teacher := { t with histCur := t.histCur + 1 } },
      fl := if t.void then {} else flagsOf zs }

/-- The cut depth for k entries: the largest depth whose counters sum to no more than k (R201). -/
def cutDepth (hist : SMap Nat) (k : Nat) : Int :=
  (List.range 256).foldl (fun d i =>
    if ((List.range (i + 1)).foldl (fun s b => s + SMap.getD 0 hist b) 0) ≤ k then (i : Int) else d) (-1)

/-- FSELECT (R201): no effect on a row not in mode 2. `k` is the Top-k field of the distillation table. -/
def rowSelect (r : RowState) (k : Nat) (seg : List F32) : FusedOut :=
  let t := r.teacher
  if t.mode ≠ 2 then { row := r }
  else
    let d := t.depth.getD (cutDepth r.hist k)
    let ka := t.anchor.getD 0
    let act := (activeOf t t.selCur seg).map (fun e => (e.1, fmul e.2 t.tau))
    let sel := (act.filter (fun e => match binOf t e.2.bits with | some b => decide (b ≤ d) | none => false)).map
      (fun e => (e.1, e.2, rneOver (powTermNear e.2.bits ka) t.sum))
    let add := sel.foldl (fun a e => if fpIsZero e.2.2.bits then a else a + fixTerm e.2.1.bits ka) 0
    { row := { r with teacher := { t with depth := some d, selSum := (t.selSum + add) % 2 ^ 64, selCur := t.selCur + 1 } },
      lanes := (List.range 480).map (fun j => some (SMap.getD 0 (sel.map (fun e => (e.1, e.2.2.bits))) j)),
      fl := if t.void then {} else (flagsOf (act.map (fun e => e.2))).or (flagsOf (sel.map (fun e => e.2.2))) }

/-- An exact product of two FP32 values to the nearest 2^-45, in units of 2^-45. -/
def fixProduct (a b : F32) : Int :=
  let v := fxVal a * fxVal b
  signed (decide (v < 0)) (rneDiv v.natAbs (2 ^ (2 * fxBits - 45)))

/-- q_rest and rho of a mode-1 row, with the events of forming them (R107, R195). -/
def restOf (t : TeacherPart) (p : StudentPart) : F32 × F32 × FFlags :=
  let q := rneOver ((max (p.sumB - p.sumBK) 1 : Nat) * 2 ^ (fxBits - 45), 0) p.sumB
  let d := fdiv t.mRest q.bits
  let rho := fsub fpOne d.bits
  (q.bits, rho.bits, flagsOf [q, d, rho])

/-- A row is void for a student (R189). -/
def voidRow (t : TeacherPart) (p : StudentPart) : Bool := t.void || p.void

/-- The gradient of one active entry: its value, the addition to X, the addition to P_K, the events
(R194, R195). What p adds to P_K is p to the nearest 2^-45, ties to even (log 118). -/
def gradEntry (t : TeacherPart) (p : StudentPart) (g : Int) (ta xb : F32) : F32 × Int × Nat × FFlags :=
  let zb := fmul xb t.tau
  let q := rneOver (powTermNear zb.bits (p.anchorB.getD 0)) p.sumB
  let useC := !fpIsZero p.cCe
  let r := if useC then rneOver (powTermNear xb (p.anchorC.getD 0)) p.sumC else { bits := 0 }
  let ry := fsub r.bits (if g = p.label then fpOne else 0)
  let e := fmul p.cCe ry.bits
  if t.mode = 1 then
    if fpIsZero ta then
      let qr := fmul q.bits ((p.rest.getD (0, 0)).2)
      let o := ffma p.cKl qr.bits e.bits
      (o.bits, 0, 0, (flagsOf [zb, q, r, ry, e, qr, o]).or (fpIn ta))
    else
      let d := fsub q.bits ta
      let o := ffma p.cKl d.bits e.bits
      let lp := if isPosNormal ta then rneFx (fxLn (2 ^ 23 + fpFrac ta) ((fpExp ta : Int) - 150)) else flog ta
      let dz := fsub lp.bits zb.bits
      (o.bits, fixProduct ta dz.bits, (fix45 (fxVal ta)).toNat, flagsOf [zb, q, r, ry, e, d, o, lp, dz])
  else
    let za := fmul ta t.tau
    let pr := rneOver (powTermNear za.bits (t.anchor.getD 0)) t.sum
    let d := fsub q.bits pr.bits
    let o := ffma p.cKl d.bits e.bits
    let dz := fsub za.bits zb.bits
    (o.bits, fixProduct pr.bits dz.bits, 0, flagsOf [za, zb, pr, q, r, ry, e, d, o, dz])

/-- FGRAD (R194, R195, R198, R199). An entry counts one invalid result, however many of its steps create a NaN (R110, log 111). -/
def rowGrad (r : RowState) (s : Nat) (tseg seg : List F32) : FusedOut :=
  let t := r.teacher
  let p0 := judgeLabel t (r.student s)
  let first := p0.gradCur == 0
  let missing := (t.mode != 1 && t.anchor.isNone) || p0.anchorB.isNone
    || (!fpIsZero p0.cCe && p0.anchorC.isNone)
  let p1 := { p0 with void := p0.void || (first && missing) }
  let rest := restOf t p1
  let p2 := if first && t.mode == 1 then { p1 with rest := some (rest.1, rest.2.1) } else p1
  let p := { p2 with gradCur := p2.gradCur + 1 }
  let zeros := List.replicate 480 (some (0 : F32))
  if voidRow t p || p.exclude then { row := r.setStudent s p, lanes := zeros }
  else
    let act := (activeOf t p2.gradCur seg).map (fun e =>
      (e.1, gradEntry t p (globalIndex t p2.gradCur e.1) (laneAt tseg e.1) e.2))
    let l := r.loss s
    let x := act.foldl (fun (a : Int × Bool) e =>
      (satInt64 (a.1 + e.2.2.1), a.2 || satInt64 (a.1 + e.2.2.1) != a.1 + e.2.2.1)) (l.x, false)
    let pk := act.foldl (fun a e => (a + e.2.2.2.1) % 2 ^ 64) l.pk
    let outs := act.map (fun e => (e.1, e.2.1))
    { row := { (r.setStudent s p) with losses := SMap.set r.losses s { x := x.1, pk := pk } },
      lanes := (List.range 480).map (fun j => some (SMap.getD 0 outs j)),
      fl := act.foldl (fun a e => a.or e.2.2.2.2) (if first && t.mode == 1 then rest.2.2 else {}), accSat := x.2,
      bad := (act.filter (fun e => e.2.2.2.2.invalid)).map (fun e => e.1) }
where
  /-- X saturates at 64 signed bits (R186). -/
  satInt64 (v : Int) : Int := clampInt (-(2 ^ 63)) (2 ^ 63 - 1) v

/-! ### Saving and merging (R193) -/

/-- The encoding of an anchor: none is the least S32 value (R186). -/
def anchorLane (k : Option Int) : F32 :=
  match k with
  | none => 0x80000000
  | some v => BitVec.ofInt 32 v

/-- The anchor a lane holds. -/
def laneAnchor (x : F32) : Option Int := if x = 0x80000000 then none else some x.toInt

/-- A 64-bit sum as two lanes, low word first. -/
def sumLanes (s : Nat) : List F32 := [BitVec.ofNat 32 s, BitVec.ofNat 32 (s / 2 ^ 32)]

/-- The sum in lanes i and i + 1. -/
def laneSum (ls : List F32) (i : Nat) : Nat := (laneAt ls i).toNat + 2 ^ 32 * (laneAt ls (i + 1)).toNat

/-- A Bool as a lane. -/
def boolLane (b : Bool) : F32 := if b then 1 else 0

/-- FSAVE (R193). -/
def rowSave (r : RowState) (part s : Nat) : FusedOut :=
  let t := r.teacher
  let p := r.student s
  let l := r.loss s
  { row := r, lanes := wr (match part with
    | 0 => fitTo 0 128 ([anchorLane t.anchor] ++ sumLanes t.sum ++ sumLanes t.selSum ++ [boolLane t.void])
    | 1 => fitTo 0 128 ([anchorLane p.anchorB] ++ sumLanes p.sumB ++ sumLanes p.sumBK ++ [anchorLane p.anchorC]
            ++ sumLanes p.sumC ++ [p.labelLogit, boolLane p.labelSeen, boolLane p.void])
    | 2 => fitTo 0 128 (sumLanes (BitVec.ofInt 64 l.x).toNat ++ sumLanes l.pk)
    | _ => (List.range 256).map (fun i => BitVec.ofNat 32 (SMap.getD 0 r.hist i))) }

/-- Two anchored sums merged: the greater anchor, each sum shifted by its anchor's rise (R193); the sum keeps its 64 bits (log 90). -/
def mergeSum (a b : RowSum) : RowSum :=
  match a.anchor, b.anchor with
  | none, _ => b
  | _, none => a
  | some x, some y =>
    let k := some (max x y)
    { anchor := k, sum := (shiftSum (some x) k a.sum + shiftSum (some y) k b.sum) % 2 ^ 64 }

/-- FMERGE (R193): sums and counters keep their widths (log 92); a void row raises no flag (R198). -/
def rowMerge (r : RowState) (part s : Nat) (ls : List F32) : FusedOut :=
  match part with
  | 0 =>
    let t := r.teacher
    let k := laneAnchor (laneAt ls 0)
    let m := mergeSum { anchor := t.anchor, sum := t.sum } { anchor := k, sum := laneSum ls 1 }
    let sel := mergeSum { anchor := t.anchor, sum := t.selSum } { anchor := k, sum := laneSum ls 3 }
    { row := { r with teacher := { t with anchor := m.anchor, sum := m.sum, selSum := sel.sum,
                                          void := t.void || laneAt ls 5 != 0 } } }
  | 1 =>
    let p := r.student s
    let kb := laneAnchor (laneAt ls 0)
    let kc := laneAnchor (laneAt ls 5)
    let b := mergeSum { anchor := p.anchorB, sum := p.sumB } { anchor := kb, sum := laneSum ls 1 }
    let bk := mergeSum { anchor := p.anchorB, sum := p.sumBK } { anchor := kb, sum := laneSum ls 3 }
    let c := mergeSum { anchor := p.anchorC, sum := p.sumC } { anchor := kc, sum := laneSum ls 6 }
    let seen := laneAt ls 9 != 0
    { row := r.setStudent s { p with anchorB := b.anchor, sumB := b.sum, sumBK := bk.sum,
                                     anchorC := c.anchor, sumC := c.sum,
                                     labelLogit := if p.labelSeen then p.labelLogit else if seen then laneAt ls 8
                                       else p.labelLogit,
                                     labelSeen := p.labelSeen || seen, void := p.void || laneAt ls 10 != 0 } }
  | 2 =>
    let l := r.loss s
    let x : Int := sextNat 64 (laneSum ls 0)
    let m : LossPart := { x := clampInt (-(2 ^ 63)) (2 ^ 63 - 1) (l.x + x), pk := (l.pk + laneSum ls 2) % 2 ^ 64 }
    { row := { r with losses := SMap.set r.losses s m },
      accSat := !voidRow r.teacher (r.student s) && decide (clampInt (-(2 ^ 63)) (2 ^ 63 - 1) (l.x + x) ≠ l.x + x) }
  | _ =>
    { row := { r with hist := (List.range 256).foldl (fun h i =>
        if laneAt ls i = 0 then h else SMap.upd 0 h i (fun n => (n + (laneAt ls i).toNat) % 2 ^ 32)) r.hist } }

/-- A row after an issue whose check failed: its teacher part, its histogram and one student's parts are unspecified (R67,
log 10). `d` is the first of 320 draws. -/
def openRow (d st : Nat) (r : RowState) : RowState :=
  let n (i : Nat) : Nat := (Config.freeBits (d + i)).toNat
  let z (i : Nat) : Int := sextNat 32 (n i % 2 ^ 32)
  let f (i : Nat) : F32 := BitVec.ofNat 32 (n i)
  let k (i : Nat) : Option Int := laneAnchor (f i)
  { teacher := { tau := f 0, v := z 1, first := z 2, mode := z 3, mRest := f 4, anchor := k 5, sum := n 6, selSum := n 7,
                 void := bitOf (n 8) 0, depth := if bitOf (n 8) 1 then some (z 9) else none, statCur := n 10,
                 histCur := n 11, selCur := n 12 },
    students := SMap.set r.students st
      { cKl := f 20, cCe := f 21, label := z 22, exclude := bitOf (n 23) 0, anchorB := k 24, sumB := n 25, sumBK := n 26,
        anchorC := k 27, sumC := n 28, labelLogit := f 29, labelSeen := bitOf (n 23) 1, void := bitOf (n 23) 2,
        statCur := n 30, gradCur := n 31, rest := if bitOf (n 23) 3 then some (f 32, f 33) else none },
    losses := SMap.set r.losses st { x := sextNat 64 (n 40), pk := n 41 },
    hist := (List.range 256).map (fun i => (i, n (64 + i) % 2 ^ 32)) }

/-! ### Closing a row (R196) -/

/-- The KL loss before its rounding, in the working fixed point; X and P_K have 45 fraction bits. -/
def klValue (t : TeacherPart) (p : StudentPart) (l : LossPart) : Int :=
  let x := l.x * 2 ^ (fxBits - 45)
  let kb := p.anchorB.getD 0
  if t.mode = 1 then
    let m := fxVal t.mRest
    let q := (p.rest.getD ((restOf t p).1, (restOf t p).2.1)).1
    let lnm (v : F32) : Int := fxLn (2 ^ 23 + fpFrac v) ((fpExp v : Int) - 150)
    x + (l.pk : Int) * (kb * fxLn2 + fxLnSum p.sumB) / 2 ^ 45
      + (if fpIsZero t.mRest then 0 else fxMul m (lnm t.mRest - lnm q))
  else x - ((t.anchor.getD 0 - kb) * fxLn2 + fxLnSum t.sum - fxLnSum p.sumB)

/-- The sums that KL is formed from are not empty (R196). -/
def klHeld (t : TeacherPart) (p : StudentPart) : Bool :=
  (t.mode == 1 || (t.anchor.isSome && t.sum != 0)) && p.anchorB.isSome && p.sumB != 0

/-- The sum that CE is formed from is not empty (R196). -/
def ceHeld (p : StudentPart) : Bool := p.anchorC.isSome && p.sumC != 0

/-- FCLOSE on part 2 (R196, R198, R199). A loss whose sums are empty, on a row that never passed FGRAD, has no value that the spec
states: `free` supplies it (log 10). The values it reads, c_ce, m_rest and the label's logit, count as inputs (R107, log 110). -/
def closeLoss (r : RowState) (s : Nat) (free : F32 × F32) : FusedOut :=
  let t := r.teacher
  let p0 := judgeLabel t (r.student s)
  let useC := !fpIsZero p0.cCe && p0.label != -1
  let p := { p0 with void := p0.void || (!fpIsZero p0.cCe && p0.label != -1 && !p0.labelSeen) }
  let v := voidRow t p
  let kl : FRes := if v then { bits := fpNan } else if klHeld t p then rneFx (klValue t p (r.loss s)) else { bits := free.1 }
  let ce : FRes := if v then { bits := fpNan } else if !useC then { bits := fpZero false }
    else if ceHeld p then
      rneFx ((p.anchorC.getD 0) * fxLn2 + fxLnSum p.sumC - fxVal p.labelLogit) else { bits := free.2 }
  let read := ((if t.mode = 1 then fpIn t.mRest else {}).or (fpIn p.cCe)).or (if useC then fpIn p.labelLogit else {})
  { row := r.setStudent s p, lanes := wr [kl.bits, ce.bits, BitVec.ofNat 32 (b2n v + 2 * b2n p.exclude)],
    fl := if v then {} else (kl.fl.or ce.fl).or read,
    loss := some (kl.bits, ce.bits, v, p.exclude) }

/-- FCLOSE on part 0: the record header of a mode-2 row (R196, R201). -/
def closeHeader (r : RowState) : FusedOut :=
  let t := r.teacher
  if t.mode ≠ 2 then { row := r }
  else
    let m := rneOver ((t.sum - t.selSum : Nat) * 2 ^ (fxBits - 45), 0) t.sum
    { row := r, lanes := wr [t.tau, BitVec.ofInt 32 t.v, 0, 1, m.bits, boolLane t.void, 0, 0], fl := if t.void then {} else m.fl }

/-- An FP32 loss to the nearest 2^-32, as an integer (R210). -/
def fix32 (x : F32) : Int :=
  match fpRead x with
  | .fin s m e => rneInt s m (e + 32)
  | .inf s => signed s (2 ^ 63)
  | .nan => 0

/-- A distillation summary with one closed row (R210): the sums are exact here and saturate once, in the report. -/
def DistSum.close (d : DistSum) (kl ce : F32) (void excluded : Bool) : DistSum :=
  let counted := !void && !excluded
  { kl := if counted then d.kl + fix32 kl else d.kl,
    ce := if counted then d.ce + fix32 ce else d.ce,
    rows := d.rows + b2n counted, void := satNat 16 (d.void + b2n void),
    excluded := satNat 16 (d.excluded + b2n excluded) }

end Sys2Proof.Machine
end

