-- ==== Sys2Proof/Machine/Vector.lean ====
section
/-!
DEFINITION. Sys2Proof/Machine/Vector.lean: the vector engine (R147 to R150): the functions of one lane, the
reductions, and what an issue of each class leaves on the event list.
-/
namespace Sys2Proof.Machine

/-- A result without events. -/
def plain (x : F32) : FRes := { bits := x }

/-- ICMP, signed, with the relations of FCMP (R147). -/
def icmp (imm : Nat) (a b : F32) : Bool :=
  match imm with
  | 0 => a == b
  | 1 => a != b
  | 2 => decide (a.toInt < b.toInt)
  | _ => decide (a.toInt ≤ b.toInt)

/-- The result of a function in one lane (R147): `k` is Imm and `sel` the select predicate's bit. -/
def laneFn (f k : Nat) (a b c : F32) (sel : Bool) : FRes :=
  match f with
  | 0x00 => fadd a b
  | 0x01 => fsub a b
  | 0x02 => fmul a b
  | 0x03 => ffma a b c
  | 0x04 => fmax a b
  | 0x05 => fmin a b
  | 0x07 | 0x1E => plain (if sel then a else b)
  | 0x08 => cvtfs a
  | 0x09 => cvtsf a
  | 0x0A => fneg a
  | 0x0B => fabs a
  | 0x10 => plain (a + b)
  | 0x11 => plain (a - b)
  | 0x12 => plain (a * b)
  | 0x13 => plain (BitVec.ofNat 32 (a.toNat * b.toNat / 2 ^ 32))
  | 0x14 => plain (a &&& b)
  | 0x15 => plain (a ||| b)
  | 0x16 => plain (a ^^^ b)
  | 0x17 => plain (a <<< (k % 32))
  | 0x18 => plain (a >>> (k % 32))
  | 0x19 => plain (a.sshiftRight (k % 32))
  | 0x1A => plain (a.rotateLeft (k % 32))
  | 0x1B => plain (if a.toInt < b.toInt then b else a)
  | 0x1C => plain (if b.toInt < a.toInt then b else a)
  | 0x20 => fdiv a b
  | 0x21 => fsqrt a
  | 0x22 => frsqrt a
  | 0x28 => fexp a
  | 0x29 => flog a
  | 0x2A => ftanh a
  | 0x2B => fsig a
  | 0x2C => ferf a
  | 0x2D => fexp2 a
  | 0x2E => flog2 a
  | _ => plain a

/-- One level of a reduction tree over values with the events of their nodes (R108). -/
def reduceLevel (op : F32 → F32 → FRes) : List F32 → List FRes
  | a :: b :: rest => op a b :: reduceLevel op rest
  | [a] => [plain a]
  | [] => []

/-- The seven levels: the result, the events, and the lowest input lane under a node that made a NaN (R108). -/
def reduceTree (op : F32 → F32 → FRes) : Nat → Nat → List F32 → FFlags → Option Nat → F32 × FFlags × Option Nat
  | 0, _, xs, fl, bad => (xs.headD 0, fl, bad)
  | n + 1, width, xs, fl, bad =>
    let rs := reduceLevel op xs
    let nodes := (positions (fun r => r.fl.invalid) rs).map (fun i => i * (2 * width))
    let low := match bad, nodes with
      | none, [] => none
      | some b, [] => some b
      | none, i :: _ => some i
      | some b, i :: _ => some (min b i)
    reduceTree op n (2 * width) (rs.map (fun r => r.bits)) (rs.foldl (fun a r => a.or r.fl) fl) low

/-- RARGMAX: the lowest lane that holds the greatest enabled number (R148). -/
def argMax (xs : List F32) (en : Nat → Bool) : F32 :=
  let c := xs.zipIdx.filter (fun e => en e.2 && !isNan e.1)
  match firstMin (fun a b => decide (fpKey b.1 ≤ fpKey a.1)) c with
  | some e => BitVec.ofNat 32 e.2
  | none => 0xFFFFFFFF

/-- A reduction of 128 lanes (R108, R147, R148): its result, its events and its invalid lane. -/
def reduce (f : Nat) (xs : List F32) (en : Nat → Bool) : F32 × FFlags × Option Nat :=
  let masked (d : F32) : List F32 := xs.zipIdx.map (fun e => if en e.2 then e.1 else d)
  match f with
  | 0x30 => reduceTree fadd 7 1 (masked 0) {} none
  | 0x31 => reduceTree fmax 7 1 (masked fpNan) {} none
  | 0x32 => reduceTree fmin 7 1 (masked fpNan) {} none
  | 0x33 => ((masked 0).foldl (fun a x => a + x) 0, {}, none)
  | _ => (argMax xs en, (xs.zipIdx.filter (fun e => en e.2)).foldl (fun a e => a.or (fpIn e.1)) {}, none)

/-- The listed latency of a vector class (R71). -/
def vectorLatency : Nat → Nat
  | 0x20 => 4
  | 0x21 => 16
  | 0x22 => 12
  | 0x23 => 30
  | _ => 64

/-- An issue of class 0x20 to 0x23: it reads at its issue cycle, and its result is visible at issue + latency
(R149). -/
def issueVector (s : State) (o : Op) (cls : Nat) (d : Desc) : State :=
  let t := s.tile o.tile
  let f := fld d 47 40
  let k := fld d 6 0
  let a := t.vreg (fld d 33 28)
  let b := t.vreg (fld d 27 22)
  let c := t.vreg (fld d 21 16)
  let pm := t.pred (fld d 15 13)
  let en (i : Nat) : Bool := bitOf pm i
  let due := o.issued + vectorLatency cls
  if f = 0x06 ∨ f = 0x1D then
    let fl := if f = 0x1D then [] else
      (List.range 128).map (fun i => (i, ({ bits := 0, fl := (fpIn (laneAt a i)).or (fpIn (laneAt b i)) } : FRes)))
    let s1 := s.addSum o.tile (fun y => y.addLanes o.issued (fl.filter (fun e => en e.1)))
    s1.emit o due phaseResult (.setPred (fld d 36 34) ((List.range 128).map (fun i =>
      if en i then some (if f = 0x06 then fcmp k (laneAt a i) (laneAt b i) else icmp k (laneAt a i) (laneAt b i))
      else none)))
  else if cls = 0x23 then
    let r := reduce f a en
    let s1 := s.addSum o.tile (fun y =>
      (y.addFlags r.2.1).addInvalid (match r.2.2 with | some _ => 1 | none => 0) o.issued (r.2.2.getD 0))
    s1.emit o due phaseResult
      (.setLanes (fld d 39 34) ((List.range 128).map (fun i => if en i then some r.1 else none)))
  else
    let sp := t.pred (fld d 2 0)
    let rs := (List.range 128).map (fun i =>
      (i, if f = 0x1F then plain (laneAt a (k % 128))
          else laneFn f k (laneAt a i) (laneAt b i) (laneAt c i) (bitOf sp i)))
    let s1 := s.addSum o.tile (fun y => y.addLanes o.issued (rs.filter (fun e => en e.1)))
    s1.emit o due phaseResult
      (.setLanes (fld d 39 34) (rs.map (fun e => if en e.1 then some e.2.bits else none)))

/-- Register lanes set where given (R148). -/
def Tile.setLanes (t : Tile) (r : Nat) (ls : List (Option F32)) : Tile :=
  { t with vregs := SMap.set t.vregs r (List.zipWith (fun o n => n.getD o) (t.vreg r) (fitTo none 128 ls)) }

/-- Predicate bits set where given; p0 cannot be written (R147). -/
def Tile.setPred (t : Tile) (p : Nat) (bs : List (Option Bool)) : Tile :=
  if p = 0 then t
  else
    let old := t.pred p
    { t with preds := SMap.set t.preds p (bitsToNat (bs.zipIdx.map (fun e => e.1.getD (bitOf old e.2)))) }

/-! ### The fused row path (R186 to R188) -/

/-- The 480 entries of a four-register group (R187). -/
def Tile.segment (t : Tile) (r : Nat) : List F32 :=
  (t.vreg r ++ t.vreg (r + 1) ++ t.vreg (r + 2) ++ t.vreg (r + 3)).take 480

/-- What a fused function does to a row (R187); `k` is the Top-k of the distillation table. -/
def fusedRow (f part st : Nat) (row : RowState) (t : Tile) (ra rb k : Nat) (free : F32 × F32) : FusedOut :=
  match f with
  | 0x40 => rowInit row part st (t.vreg ra)
  | 0x41 => if part = 0 then statTeacher row (t.segment ra) else statStudent row st (t.segment ra) (t.segment rb)
  | 0x42 => rowHist row (t.segment ra)
  | 0x43 => rowSelect row k (t.segment ra)
  | 0x44 => rowGrad row st (t.segment ra) (t.segment rb)
  | 0x45 => rowSave row part st
  | 0x46 => rowMerge row part st (t.vreg ra ++ t.vreg (ra + 1))
  | _ => if part = 0 then closeHeader row else closeLoss row st free

/-- The lanes of the i-th destination register. -/
def destLanes (ls : List (Option F32)) (i : Nat) : List (Option F32) := (ls.drop (128 * i)).take 128

/-- A fused issue (class 0x24): rows change in issue order, registers at issue + 64 (R188). A failed check leaves the row, and
the losses it closes with, unspecified (R67, log 10). -/
def issueFused (s : State) (o : Op) (d : Desc) : State :=
  let t := s.tile o.tile
  let f := fld d 47 40
  let part := fld d 21 16
  let st := fld d 6 5
  let r := fld d 4 0
  let row := SMap.getD {} t.rows r
  let k := match s.job o.job with
    | some j => leAt (s.jobConstant j 1) 4 4
    | none => 0
  let closing := f == 0x47 && part == 2
  let free := ((Config.freeBits s.draws).setWidth 32, (Config.freeBits (s.draws + 1)).setWidth 32)
  let out := fusedRow f part st row t (fld d 33 28) (fld d 27 22) k free
  let sum := { (t.sum.addFlags out.fl) with accSat := t.sum.accSat || out.accSat }
  let sum1 := sum.addInvalid out.bad.length o.issued ((out.bad.map (fun j => j % 128)).foldl min 127)
  let dist := match out.loss with
    | some (kl, ce, v, x) => SMap.upd {} t.distil st (fun e => if o.spoiled then e.close free.1 free.2 v x else e.close kl ce v x)
    | none => t.distil
  let row1 := if o.spoiled then openRow (s.draws + 2) st row else out.row
  let s1 := { s.setTile o.tile { t with rows := SMap.set t.rows r row1, sum := sum1, distil := dist } with
              draws := s.draws + (if o.spoiled then 322 else if closing then 2 else 0) }
  (List.range (destCount f part)).foldl (fun (acc : State) i =>
    if out.lanes.isEmpty then acc
    else acc.emit o (o.issued + 64) phaseResult (.setLanes (fld d 39 34 + i) (destLanes out.lanes i))) s1

end Sys2Proof.Machine
end

