-- ==== Sys2Proof/Machine/Issue.lean ====
section
/-!
DEFINITION. Sys2Proof/Machine/Issue.lean: what every issue record does (R64, R67 to R70): its checks, its releases, its
set entry, and the class's own work; and the repeat record (R65).
-/
namespace Sys2Proof.Machine

/-- A scoreboard entry of a tile. -/
def Tile.entry (t : Tile) (e : Nat) : Entry := SMap.getD .empty t.score e

/-- A scoreboard entry set; EMPTY is not listed. -/
def Tile.setEntry (t : Tile) (e : Nat) (v : Entry) : Tile :=
  { t with score := if v = .empty then SMap.erase t.score e else SMap.set t.score e v }

/-- Entry numbers fit the scoreboard (R68). -/
def recOk (r : IssueRec) : Bool :=
  decide (r.entryA < 256) && decide (r.entryB < 256) && decide (r.setEntry < 256)

/-- An array is fenced in the stored repair map (R130, R131): bit 101 of its record. -/
def State.arrayFenced (s : State) (tile : Nat) (a : Arr) : Bool :=
  bitOf (SMap.getD 0 s.store.repair (2 * tile + (match a with | .hawk => 0 | .float => 1))) 101

/-- The program that a tile runs in a class of steps of the running body: its TILE_PROGRAM, or its TILE_ALTERNATE where one of the
tile's arrays is fenced (R78, R473). Its records are 16 bytes each (R64). -/
def State.program (s : State) (j : Job) (tile cls : Nat) : Option (List Nat) :=
  match s.jobImage j with
  | none => none
  | some i =>
    let type := if s.arrayFenced tile .hawk || s.arrayFenced tile .float then 2 else 1
    (i.sections.find? (fun x => x.body == j.body && x.type == type && bitsOf x.flags 5 0 == j.imageTile tile
      && (!serves j.kind || bitsOf x.flags 13 8 == cls))).map (fun x => recordsAt x.data 0 16 (x.data.length / 16))

/-- A tile runs a step of a job that is before its abandon boundary, and the step has not ended (R63, R83): the job and the step. -/
def State.stepOf (s : State) (tile : Nat) : Option (Job × StepRun) :=
  ((s.tile tile).job.bind s.job).bind (fun j => (j.live.filter (fun r => decide (r.start ≤ s.now) && decide (s.now < r.stop))).map
    (fun r => (j, r)))

/-- An issue record from its 128 bits (R64). -/
def recordOf (index w : Nat) : IssueRec :=
  { index := index, checkA := bitOf w 83, checkB := bitOf w 82, setValid := bitOf w 81, releaseA := bitOf w 80,
    releaseB := bitOf w 79, entryA := bitsOf w 71 64, entryB := bitsOf w 63 56, setEntry := bitsOf w 55 48,
    desc := BitVec.ofNat 48 w }

/-- Record `n` of a list of records where no repeat spans it, the first `skip` records being spanned (R65). -/
def topRecord : List Nat → Nat → Nat → Option Nat
  | [], _, _ => none
  | w :: _, skip, 0 => if skip = 0 then some w else none
  | w :: ws, 0, n + 1 => topRecord ws (if bitsOf w 95 92 = 15 then bitsOf w 19 8 else 0) n
  | _ :: ws, skip + 1, n + 1 => topRecord ws skip n

/-- The record of a tile's program that its sequencer issues in this cycle (R64, R67): the record with this index, at its cycle offset
from the step's first cycle, which the sequencer has not passed. -/
def State.recordNow (s : State) (tile index : Nat) : Option Nat :=
  (s.stepOf tile).bind (fun x => (s.program x.1 tile x.2.cls).bind (fun ws =>
    (topRecord ws 0 index).filter (fun w => decide ((s.tile tile).pos ≤ index) && s.now == x.2.start + bitsOf w 127 96)))

/-- The entries a record checks (R64). -/
def recChecks (r : IssueRec) : List Nat :=
  (if r.checkA then [r.entryA] else []) ++ (if r.checkB then [r.entryB] else [])

/-- The checks of a record, each entry that is not READY raising OPERAND_ABSENT (R67, R70). -/
def checkEntries (s : State) (jid tile unit : Nat) (r : IssueRec) : State :=
  match s.job jid with
  | none => s
  | some j =>
    ((recChecks r).filter (fun e => (s.tile tile).entry e != .ready)).foldl
      (fun (st : State) e => st.raise jid 0x01 s.now (j.atTile tile unit e r.index)) s

/-- The entries that a record releases (R64). -/
def recReleases (r : IssueRec) : List Nat :=
  (if r.releaseA then [r.entryA] else []) ++ (if r.releaseB then [r.entryB] else [])

/-- The releases of a record (R69). -/
def releaseEntries (s : State) (tile : Nat) (es : List Nat) : State :=
  s.updTile tile (fun t => es.foldl (fun (x : Tile) e => x.setEntry e .empty) t)

/-- The set entry of an issue: EMPTY becomes PENDING, anything else is ENTRY_BUSY (R69, R70). -/
def claimEntry (s : State) (o : Op) (e : Nat) : State :=
  if (s.tile o.tile).entry e = .empty then s.updTile o.tile (fun t => t.setEntry e .pending)
  else match s.job o.job with
    | some j => s.raise o.job 0x02 o.due (j.atTile o.tile o.unit e o.record)
    | none => s

/-- The issue counted in its phase (R241). -/
def countIssue (s : State) (jid tile unit : Nat) : State :=
  match s.job jid with
  | none => s
  | some j =>
    let start := match j.live with | some r => r.start | none => s.now
    let ph := phaseOf (s.jobConstant j 3) (j.imageTile tile) (s.now - start)
    s.updTile tile (fun t => { t with
      issues := SMap.upd 0 t.issues ph (fun n => n + 1),
      arrIssues := if unit ≤ 1 then SMap.upd 0 t.arrIssues ph (fun n => n + 1) else t.arrIssues })

/-- The entry that an issue's completion sets. -/
def recEntry (r : IssueRec) : Option Nat := if r.setValid then some r.setEntry else none

/-- The releases and the set entry of a record put on the event list of its cycle: every check of the cycle comes before every
release, and every release before every set entry (R69). -/
def scoreEvents (s : State) (o : Op) (r : IssueRec) : State :=
  let s1 := if (recReleases r).isEmpty then s else s.emit o o.issued phaseRelease (.release (recReleases r))
  match recEntry r with
  | some e => s1.emit o o.issued phaseSet (.promise e)
  | none => s1

/-- The scoreboard part of an issue, in the order of R69; answers the issue, which knows whether a check failed. -/
def beginIssue (s : State) (tile unit cls : Nat) (r : IssueRec) : State × Op :=
  let jid := (s.tile tile).job.getD 0
  let failed := (recChecks r).any (fun e => (s.tile tile).entry e != .ready)
  let s1 := checkEntries s jid tile unit r
  let o : Op := { due := s.now, phase := phaseResult, seq := 0, id := s.issues, tile := tile, job := jid, unit := unit,
                  record := r.index, issued := s.now, cls := cls, spoiled := failed, act := .complete none }
  (scoreEvents { countIssue s1 jid tile unit with issues := s.issues + 1 } o r, o)

/-- The trace entries of an issue (R399): its scoreboard checks at level 1, the record at level 2. -/
def traceIssue (s : State) (tile unit : Nat) (r : IssueRec) : State :=
  let jid := (s.tile tile).job.getD 0
  let state (e : Nat) : Nat := ((s.tile tile).entry e).code
  let s1 := (recChecks r).foldl (fun (st : State) e => st.trace jid 1 (dieOf tile) tile unit e 0 [state e]) s
  s1.trace jid 2 (dieOf tile) tile unit r.index 1 [state r.entryA, state r.entryB, state r.setEntry]

/-- The completion of an issue put on the event list at its listed latency (R69, R71). -/
def State.completeAt (s : State) (o : Op) (r : IssueRec) (latency : Nat) : State :=
  s.emit o (o.issued + latency) phaseResult (.complete (recEntry r))

/-- The work of one op class (R71), after the scoreboard's. -/
def classWork (s : State) (o : Op) (a : Arr) (cls : Nat) (r : IssueRec) : State :=
  let d := r.desc
  match cls with
  | 0x01 => issueWeights (s.completeAt o r 48) o a 1 d
  | 0x02 => issueWeights (s.completeAt o r 50) o a 2 d
  | 0x03 => issueActivation (s.completeAt o r 24) o a 3 d
  | 0x04 => issueActivation (s.completeAt o r 26) o a 4 d
  | 0x05 => issueDrain5 (s.completeAt o r 12) o a d
  | 0x06 => issueDrain6 (s.completeAt o r 20) o a d
  | 0x10 => issueSkim (s.completeAt o r 348) o d
  | 0x20 | 0x21 | 0x22 | 0x23 => issueVector (s.completeAt o r (vectorLatency cls)) o cls d
  | 0x24 => issueFused (s.completeAt o r 64) o d
  | 0x30 => issueScratch (s.completeAt o r 3) o d
  | 0x31 => issueTurn (s.completeAt o r 5) o d
  | 0x40 | 0x41 | 0x42 | 0x43 | 0x44 => issueMemory (s.completeAt o r (memLatency cls)) o cls d
  | 0x45 => if fld d 5 5 = 1 then issuePut (s.completeAt o r 320) o d else issueTake (s.completeAt o r 320) o d
  | 0x50 | 0x51 =>
    match s.job o.job with
    | none => s
    | some j =>
      match s.transfer j false false d with
      | some e => issueDieSend (s.completeAt o r (dieLatency cls e.units)) o cls d
      | none => issueReceive s o false cls d (recEntry r)
  | 0x60 =>
    match s.job o.job with
    | none => s
    | some j =>
      match s.transfer j true false d with
      | some e => issueLathSend (s.completeAt o r ((boundOf (s.jobSection j 4) e.link).getD 0)) o d
      | none => issueReceive s o true cls d (recEntry r)
  | 0x70 | 0x71 | 0x72 =>
    let x := issueScreed s o cls d
    x.1.completeAt o r x.2
  | 0x80 => issueArrive (s.completeAt o r 16) o cls d
  | 0x81 => issueArrive (s.completeAt o r 48) o cls d
  | _ =>
    match s.job o.job with
    | none => s
    | some j =>
      issueArrive (s.completeAt o r ((boundOf (s.jobSection j 4) (fld d 6 1)).getD 0 + 16)) o cls d

/-- The unit of an op class (R66). -/
def unitOf (a : Arr) (cls : Nat) : Nat :=
  if cls ≤ 0x06 then (match a with | .hawk => 0 | .float => 1)
  else if cls = 0x10 then 2
  else if cls ≤ 0x24 then 3
  else if cls ≤ 0x31 then 4
  else if cls ≤ 0x45 then 5
  else if cls ≤ 0x51 then 6
  else if cls = 0x60 then 7
  else if cls ≤ 0x72 then 8 else 9

/-- The descriptor of a class is assigned (R119). -/
def descOk (tile cls : Nat) (d : Desc) : Bool :=
  match cls with
  | 0x01 | 0x02 => weightOk cls d
  | 0x03 | 0x04 => activationOk cls d
  | 0x05 => drain5Ok d
  | 0x06 => drain6Ok d
  | 0x10 => skimOk d
  | 0x20 | 0x21 | 0x22 | 0x23 | 0x24 => vectorOk cls d
  | 0x30 => scratchOk d
  | 0x31 => turnOk d
  | 0x40 | 0x41 | 0x42 | 0x43 | 0x44 => memoryOk cls d
  | 0x45 => stashOk d
  | 0x50 | 0x51 | 0x60 => transferOk d
  | 0x70 | 0x71 | 0x72 => screedOk d
  | 0x80 | 0x81 | 0x82 => syncOk cls (dieOf tile) d
  | _ => false

/-- The scratchpad ranges that a record names outright: first unit and bytes (R154). -/
def descRanges (cls : Nat) (d : Desc) : List (Nat × Nat) :=
  match cls with
  | 0x01 | 0x02 => [(fld d 47 28, groupSize ((fmtOf (fld d 27 24)).getD .s8))]
  | 0x03 | 0x04 =>
    if fld d 15 15 = 1 ∨ fld d 17 16 < 2 then [(fld d 47 28, segBytes ((fmtOf (fld d 9 6)).getD .s8))] else []
  | 0x05 => [(fld d 47 28, if fld d 18 17 = 0 then 480 else 960)]
  | 0x06 => [(fld d 47 28, 1920)]
  | 0x30 =>
    (match fld d 21 18 with
     | 2 | 3 => [(fld d 47 28, 64)]
     | 4 => [(fld d 47 28, segBytes ((fmtOf (fld d 11 8)).getD .s8))]
     | _ => [(fld d 47 28, 32 * (fld d 27 23 + 1))])
  | 0x31 =>
    let n := segBytes ((fmtOf (fld d 7 4)).getD .s8)
    [(fld d 47 28, n), (fld d 27 8, n)]
  | 0x40 | 0x41 | 0x42 | 0x43 | 0x44 =>
    if fld d 3 0 = 0 then [(fld d 47 28, 32 * (fld d 10 6 + 1))] else [(fld d 47 28, 512)]
  | 0x45 => [(fld d 47 28, 544)]
  | _ => []

/-- Every range lies in scratchpad (R154). -/
def rangesOk (cls : Nat) (d : Desc) : Bool :=
  (descRanges cls d).all (fun x => decide (32 * x.1 + x.2 ≤ scratchEnd))

/-- A record with a unit, an op class and fields is the one that a tile's sequencer issues in this cycle (R67). -/
def State.issuing (s : State) (tile : Nat) (a : Arr) (cls : Nat) (r : IssueRec) : Bool :=
  (s.recordNow tile r.index).any (fun w => bitsOf w 95 92 == unitOf a cls && bitsOf w 91 84 == cls && recordOf r.index w == r)

/-- A tile's sequencer goes on to a record of its program. -/
def State.passTo (s : State) (tile n : Nat) : State := s.updTile tile (fun t => { t with pos := n })

/-- An issue at the clock's cycle: its scoreboard part, then its class's work. A tile that runs no step issues
nothing, and a fenced array takes no issues (R130). -/
def issueNow (s : State) (tile : Nat) (a : Arr) (cls : Nat) (r : IssueRec) : State :=
  if (s.stepOf tile).isSome && !(decide (cls ≤ 0x06) && s.arrayFenced tile a) then
    let x := beginIssue (traceIssue s tile (unitOf a cls) r) tile (unitOf a cls) cls r
    classWork x.1 x.2 a cls r
  else s

/-! ### Repeats (R65) -/

/-- The issues of a list of records that starts at cycle `base`, repeats unrolled, in cycle order within each
iteration: each issue's cycle, unit, class and record (R65). `depth` bounds the nesting. -/
def unroll : Nat → Nat → Nat → List (Nat × Nat) → List (Nat × Nat × Nat × IssueRec)
  | 0, _, _, _ => []
  | _, 0, _, _ => []
  | _, _, _, [] => []
  | depth + 1, fuel + 1, base, (ix, w) :: rest =>
    let c := base + bitsOf w 127 96
    if bitsOf w 95 92 = 15 then
      let span := bitsOf w 19 8
      let body := rest.take span
      (List.range (bitsOf w 91 64)).flatMap (fun i => unroll depth fuel (c + i * bitsOf w 47 20) body)
        ++ unroll (depth + 1) fuel base (rest.drop span)
    else (c, bitsOf w 95 92, bitsOf w 91 84, recordOf ix w) :: unroll (depth + 1) fuel base rest

/-- The array a unit code names. -/
def arrOf (unit : Nat) : Arr := if unit = 1 then .float else .hawk

end Sys2Proof.Machine
end

