-- ==== Sys2Proof/Machine/Advance.lean ====
section
/-!
DEFINITION. Sys2Proof/Machine/Advance.lean: the clock. Moving the clock runs, in order, every micro-operation that falls
due on the way: accesses at their controllers, landings, register results and completions (R69, R155).
-/
namespace Sys2Proof.Machine

/-- Free values in place of a result whose issue failed a check (R67, log 10). Answers how many were drawn. -/
def Act.spoil (draws : Nat) : Act → Act × Nat
  | .addRow a row start block ts =>
    (.addRow a row start block (ts.zipIdx.map (fun e => satInt 40 (Config.freeBits (draws + e.2)).toInt)), ts.length)
  | .setWeights a set cols =>
    (.setWeights a set (cols.zipIdx.map (fun e =>
      { w := (List.range 32).map (fun k => sextNat 8 (Config.freeBits (draws + 33 * e.2 + k)).toNat),
        scale := (Config.freeBits (draws + 33 * e.2 + 32)).toNat % 256 })), 33 * cols.length)
  | .setMask a _ =>
    (.setMask a (packMsb ((List.range 8).map (fun k => (60, (Config.freeBits (draws + k)).toNat)))), 8)
  | .setControl _ => (.setControl (Config.freeBits draws), 1)
  | .setBase i _ => (.setBase i (Config.freeBits draws), 1)
  | .setEntry i e =>
    (.setEntry i { e with rows := (List.range 8).map (fun r => (List.range 32).map (fun k =>
      sextNat 8 (Config.freeBits (draws + 32 * r + k)).toNat)) }, 256)
  | .setLanes r ls =>
    (.setLanes r (ls.zipIdx.map (fun e => e.1.map (fun _ => (Config.freeBits (draws + e.2)).setWidth 32))), ls.length)
  | .setPred p bs =>
    (.setPred p (bs.zipIdx.map (fun e => e.1.map (fun _ => bitOf (Config.freeBits (draws + e.2)).toNat 0))), bs.length)
  | .write a bs =>
    (.write a (bs.zipIdx.map (fun e => e.1.map (fun _ => (Config.freeBits (draws + e.2)).setWidth 8))), bs.length)
  | .memWrite m bs => (.memWrite m (freeBytes draws bs.length), bs.length)
  | .residRead e p k bs nan => (.residRead e p k (freeBytes draws bs.length) nan, bs.length)
  | .put m off bs _ sq k =>
    (.put m off (freeBytes draws bs.length) (segScales (stashForm m.code).1 (freeBytes draws bs.length)) sq k, bs.length)
  | .dieLand j e bs t m => (.dieLand j e (freeBytes draws bs.length) t m, bs.length)
  | .arrive j obj _ die => (.arrive j obj (bitsOf (Config.freeBits draws).toNat 13 0) die, 1)
  | a => (a, 0)

/-- An operation completes into its set entry: PENDING becomes READY, anything else is ENTRY_UNEXPECTED
(R69, R70). -/
def completeEntry (s : State) (o : Op) (entry : Option Nat) : State :=
  match entry with
  | none => s
  | some e =>
    if (s.tile o.tile).entry e = .pending then s.updTile o.tile (fun t => t.setEntry e .ready)
    else match s.job o.job with
      | some j => s.raise o.job 0x03 o.due (j.atTile o.tile o.unit e o.record)
      | none => s

/-- The status an access completes with (R168, R169): TRANSFER_ERROR for an uncorrectable error (R476). -/
def completeStatus (s : State) (o : Op) (entry : Option Nat) : State :=
  let s1 := match o.ctl with
    | some c => s.updCtl c (fun x => countError x o.due o.status)
    | none => s
  if o.status = .uncorrectable then
    match s1.job o.job with
    | some j => s1.raise o.job 0x05 o.due (j.atTile o.tile o.unit (entry.getD 0xFFFF) o.record)
    | none => s1
  else s1

/-- Every micro-operation of an issue moved later by some cycles (R324). -/
def State.delay (s : State) (id d : Nat) : State :=
  let mine := s.inflight.filter (fun (x : Op) => x.id == id)
  mine.foldl (fun (st : State) x => st.enqueue { x with due := x.due + d })
    { s with inflight := s.inflight.filter (fun (x : Op) => x.id != id) }

/-- The next usable slot of a grant after a cycle (R324), within two periods; link cycles are all usable. -/
def nextSlot (res grant : Nat) (tier2 : Bool) (c : Nat) : Nat :=
  let ok (k : Nat) : Bool := granted grant k && (decide (100 ≤ res) || usable tier2 k)
  match (List.range 2048).find? (fun i => ok (c + 1 + i)) with
  | some i => c + 1 + i
  | none => c + 1

/-- A slot claim of a pooled partition at its cycle (R324): taken, or moved to the next usable slot of the grant. -/
def doClaim (s : State) (o : Op) (res left grant : Nat) (tier2 : Bool) (planned : Nat) (next : Act) : State :=
  let again (st : State) (k : Nat) : State :=
    st.enqueue { o with due := nextSlot res grant tier2 o.due, act := .claim res k grant tier2 planned next }
  if s.taken.contains (res, o.due) then again s left
  else
    let s1 := { s with taken := (res, o.due) :: s.taken }
    if 1 < left then again s1 (left - 1)
    else
      let late := o.due - planned
      let s2 := if late = 0 then s1 else s1.delay o.id late
      s2.emit { o with issued := o.issued + late } o.due phaseMem next

/-- What follows `off` cycles after the issue, which a delayed claim counts in (R324): a claim of the next link, or a landing. -/
def doCross (s : State) (o : Op) (off : Nat) (next : Act) : State :=
  match next with
  | .claim res left grant t2 _ act =>
    let pid := match s.job o.job with | some j => j.part | none => 0
    s.enqueue { o with due := o.issued + off, phase := phaseClaim, seq := claimSeq pid (o.issued + off) s.opSeq,
                       act := .claim res left grant t2 (o.issued + off + left - 1) act }
  | _ => s.emit o (o.issued + off) phaseMem next

/-- The effect of one micro-operation. -/
def runAct (s : State) (o : Op) : State :=
  match o.act with
  | .complete e => completeEntry (completeStatus s o e) o e
  | .release es => releaseEntries s o.tile es
  | .promise e => claimEntry s o e
  | .weightsBusy a set => s.updTile o.tile (fun t => t.setArr a ((t.arr a).markBusy set))
  | .setWeights a set cols => s.updTile o.tile (fun t => t.setArr a ((t.arr a).setCols set cols))
  | .fill a unit f => doFill s o a unit f
  | .readLine a d block mask => doReadLine s o a d block mask
  | .readWeights a set row start block line sc fac mask => doReadWeights s o a set row start block line sc fac mask
  | .addRow a row start block ts => doAddRow s o a row start block ts
  | .setMask a v => s.updTile o.tile (fun t => t.setArr a { t.arr a with mask := v })
  | .setEntry i e => s.updTile o.tile (fun t => { t with skim := { t.skim with entries := SMap.set t.skim.entries i e } })
  | .setControl w => s.updTile o.tile (fun t => { t with skim := { t.skim with control := controlKept w } })
  | .setBase i w => s.updTile o.tile (fun t => { t with bases := SMap.set t.bases i (baseKept w) })
  | .setLanes r ls => s.updTile o.tile (fun t => t.setLanes r ls)
  | .setPred p bs => s.updTile o.tile (fun t => t.setPred p bs)
  | .write a bs => s.updTile o.tile (fun t => t.store a bs)
  | .hook a h unit ys mask => doHook s o a h unit ys mask
  | .skim d e c => doSkim s o d e c
  | .memRead m => doMemRead s o m (o.issued + memLatency o.cls)
  | .memWrite m bs => doMemWrite s o m bs
  | .memStore m bs => doMemStore s o m bs
  | .sum fl conv =>
    s.addSum o.tile (fun y =>
      let y1 := y.addFlags fl
      match conv with
      | some c => y1.addConv c
      | none => y1)
  | .put m off bs sc _ k => doPut s o m off bs sc k
  | .take m off fp => doTake s o m off fp
  | .readLand m raw take kept => doReadLand s o m raw take kept
  | .landing rid => landUse s o rid
  | .residRead send part kind pl nan => doResidRead s o o.cls send part kind pl nan
  | .residWrite a bs h hb live => doResidWrite s o a bs h hb live
  | .packet p die => packetLand s p die o.due
  | .dieLand j e bs t m =>
    if s.dieCarried o m (t / 16) (linkCycles (bs.length / 32)) then doDieLand s j e bs t o.due else s
  | .clash die obj => s.raise o.job 0x0C o.due { die := die, unit := 6, object := obj }
  | .deliver rid e =>
    let r := doDeliver s o rid e
    if r.2 then completeEntry r.1 o e else r.1
  | .arrive j obj amt die => doArrive s j obj amt die o.due
  | .issue a cls r => issueNow s o.tile a cls r
  | .claim res left grant t2 planned next => doClaim s o res left grant t2 planned next
  | .cross off next => doCross s o off next

/-- One micro-operation run, its results unspecified where its issue failed a check (R67). -/
def runOp (s : State) (o : Op) : State :=
  if o.spoiled then
    let a := o.act.spoil s.draws
    runAct { s with draws := s.draws + a.2 } { o with act := a.1 }
  else runAct s o

/-- A micro-operation falls due before the issues of cycle `t`. -/
def Op.dueBy (o : Op) (t : Nat) : Bool := decide (o.due < t) || (o.due == t && o.phase == phaseResult)

/-- Runs the micro-operations that fall due before the issues of cycle `t`, at most `fuel` of them. -/
def runDue (t : Nat) : Nat → State → State
  | 0, s => s
  | fuel + 1, s =>
    match s.inflight with
    | [] => s
    | o :: rest =>
      if o.dueBy t then runDue t fuel (runOp { s with inflight := rest, now := max s.now o.due } o)
      else s

/-- Enough steps for all that is in flight: an issue runs through at most some thousands of micro-operations. -/
def State.fuel (s : State) : Nat := 4096 * (s.inflight.length + 1)

/-- The clock moved to cycle `t`, with everything that falls due before the issues of that cycle. The clock never
moves back. -/
def State.advance (s : State) (t : Nat) : State :=
  let s1 := runDue t s.fuel s
  { s1 with now := max s1.now t }

/-- Runs the micro-operations due in cycle `t` or before, at most `fuel` of them. -/
def runThrough (t : Nat) : Nat → State → State
  | 0, s => s
  | fuel + 1, s =>
    match s.inflight with
    | [] => s
    | o :: rest =>
      if o.due ≤ t then runThrough t fuel (runOp { s with inflight := rest, now := max s.now o.due } o) else s

/-- The clock moved to cycle `t`, with everything that falls due in that cycle too. -/
def State.through (s : State) (t : Nat) : State :=
  let s1 := runThrough t s.fuel s
  { s1 with now := max s1.now t }

/-- The clock moved to the beginning of cycle `t`: everything before it done, nothing of it. -/
def State.reach (s : State) (t : Nat) : State :=
  let s1 := if t = 0 then s else s.through (t - 1)
  { s1 with now := max s1.now t }

/-! ### Repeats (R65) -/

/-- The issues of an unrolled repeat put on the event list, each at its cycle from `base` on. -/
def repeatIssues (s : State) (tile base : Nat) (l : List (Nat × Nat × Nat × IssueRec)) : State :=
  l.foldl (fun (st : State) x =>
    let o : Op := { due := base + x.1, phase := phaseIssue, seq := 0, id := st.issues, tile := tile,
                    job := (st.tile tile).job.getD 0, unit := x.2.1, record := x.2.2.2.index, issued := base + x.1,
                    act := .complete none }
    { st with issues := st.issues + 1 }.emit o (base + x.1) phaseIssue (.issue (arrOf x.2.1) x.2.2.1 x.2.2.2)) s

/-- Every record of a repeat is assigned and belongs to its unit (R66, R119). -/
def unrolledOk (tile : Nat) (l : List (Nat × Nat × Nat × IssueRec)) : Bool :=
  l.all (fun x => descOk tile x.2.2.1 x.2.2.2.desc && recOk x.2.2.2 && unitOf (arrOf x.2.1) x.2.2.1 == x.2.1)

/-- The ranges of a repeat lie in scratchpad. -/
def unrolledIn (l : List (Nat × Nat × Nat × IssueRec)) : Bool := l.all (fun x => rangesOk x.2.2.1 x.2.2.2.desc)

end Sys2Proof.Machine
end

