-- ==== Sys2Proof/Machine/Fabric.lean ====
section
/-!
DEFINITION. Sys2Proof/Machine/Fabric.lean: the Lath link layer (R342 to R369): sequence numbers, replay, send points,
the flits received, training and discovery.
-/
namespace Sys2Proof.Machine

/-! ### Flits (R342) -/

/-- The types that take a sequence number (R342, R346). -/
def sequenced (type : Nat) : Bool := type == 1 || type == 2 || type == 3 || type == 5 || type == 6 || type == 7

/-- The header word of a flit (R342). -/
def flitHeader (f : Flit) : Nat :=
  packMsb [(4, f.type), (12, f.seq), (12, f.ack), (1, b2n f.nakValid), (12, f.nak), (1, b2n f.last), (2, 0), (12, f.job),
    (17, f.dest), (23, f.word)]

/-- The 256 bytes of a flit, with its CRC (R342). -/
def flitBytes (f : Flit) : List Byte :=
  let b := leBytes 12 (flitHeader f) ++ fitTo 0 240 f.payload
  b ++ leBytes 4 (crc32c b)

/-- A flit from its 256 bytes: none where the CRC fails or the Type is unassigned (R342). -/
def flitOf (bs : List Byte) : Option Flit :=
  let h := leAt bs 0 12
  if leAt bs 252 4 = crc32c (bs.take 252) ∧ bitsOf h 95 92 < 8 then
    some { type := bitsOf h 95 92, seq := bitsOf h 91 80, ack := bitsOf h 79 68, nakValid := bitOf h 67,
           nak := bitsOf h 66 55, last := bitOf h 54, job := bitsOf h 51 40, dest := bitsOf h 39 23,
           word := bitsOf h 22 0, payload := slice bs 12 240 }
  else none

/-- How far sequence number b lies ahead of a, modulo 4,096 (R346). -/
def seqAhead (a b : Nat) : Nat := (b + 4096 - a) % 4096

/-- A sequence number is covered by an Ack (R346): at or behind it, within half the space. -/
def seqCovered (seq ack : Nat) : Bool := decide (seqAhead seq ack < 2048)

/-- The replay buffer after an Ack and a Nak (R346): a flit named in a Nak is kept and due; one already sent again
is kept until an Ack that its second journey could have caused (log 82). -/
def replayAck (replay : List Sent) (ack : Nat) (nak : Option Nat) (at_ delay : Nat) : List Sent :=
  (replay.filter (fun x =>
    nak == some x.flit.seq || !seqCovered x.flit.seq ack || x.due
      || (x.resends != 0 && decide (at_ < x.sentAt + 2 * delay)))).map
    (fun x => if nak = some x.flit.seq then { x with due := true } else x)

/-- A flit lost beyond replay (R346): for a scheduled flit a loss flit is to follow. -/
def loseFlit (l : Link) (x : Sent) (at_ : Nat) : Link :=
  { l with replay := l.replay.filter (fun y => y.flit.seq != x.flit.seq), lost := satNat 8 (l.lost + 1), lostAt := some at_,
           lossQ := if x.flit.type = 1 then l.lossQ ++ [{ type := 6, job := x.flit.job, dest := x.flit.dest, word := x.flit.word, last := true }]
             else l.lossQ }

/-- The Ack and Nak of a received flit taken (R345, R346): a request for a flit that has been resent
three times loses it. A hello's Ack ends its exchange (R353). -/
def takeAck (l : Link) (f : Flit) (at_ : Nat) : Link :=
  let nak := if f.nakValid then some f.nak else none
  let l1 := (l.replay.find? (fun x => nak == some x.flit.seq && x.resends == 3 && !x.due)).elim l (fun x => loseFlit l x at_)
  { l1 with replay := replayAck l1.replay f.ack nak at_ l.delay,
            helloAcked := l.helloAcked || (match l.helloSeq with
             | some q => seqCovered q f.ack && nak != some q
             | none => false) }

/-- The sequence number of a received flit taken: the link, and whether the flit is new (R346, R347). -/
def takeSeq (l : Link) (f : Flit) : Link × Bool :=
  if sequenced f.type then
    let d := seqAhead l.rxNext f.seq
    if d < 2048 then
      let skipped := (List.range d).map (fun i => (l.rxNext + i) % 4096)
      ({ l with rxNext := (f.seq + 1) % 4096, rxMissing := l.rxMissing ++ skipped, rxOwed := l.rxOwed ++ skipped }, true)
    else if l.rxMissing.contains f.seq then
      ({ l with rxMissing := l.rxMissing.filter (fun q => q != f.seq), rxOwed := l.rxOwed.filter (fun q => q != f.seq) }, true)
    else (l, false)
  else (l, true)

/-- A link that carries flits: in HELLO, ACTIVE or DUPLICATE (R349). -/
def Link.up (l : Link) : Bool := l.state == .hello || l.state == .active || l.state == .duplicate

/-- A flit received on a link: Ack, Nak and sequence taken; answers whether it is to be acted on. -/
def rxFlit (s : State) (link : Nat) (f : Flit) : State × Bool :=
  let l := s.link link
  if l.up then
    let r := takeSeq (takeAck l f s.now) f
    (s.updLink link (fun _ => r.1), r.2)
  else (s, false)

/-- Discarded as misaddressed (R356, R357). -/
def misaddress (s : State) (link : Nat) : State :=
  s.updLink link (fun l => { l with misaddressed := satNat 8 (l.misaddressed + 1) })

/-- Discarded as unroutable (R359). -/
def unroute (s : State) (link : Nat) : State :=
  s.updLink link (fun l => { l with unroutable := satNat 8 (l.unroutable + 1) })

/-- The module, die and tile of a fabric address (R356). -/
def addrParts (a : Nat) : Nat × Nat × Nat := (bitsOf a 16 7, bitsOf a 6 4, bitsOf a 3 0)

/-- The own fabric address of hub firmware of a module (R356). -/
def hubAddr (module : Nat) : Nat := module * 128 + 7 * 16 + 15

/-! ### Scheduled, sync and loss flits (R325, R342, R347, R357) -/

/-- A link carries scheduled traffic: ACTIVE and in common time (R47, R349). -/
def Link.scheduled (l : Link) : Bool := l.state == .active && l.timeClass == .common

/-- A scheduled flit, or its loss, at the tile it names. -/
def landScheduled (s : State) (link : Nat) (f : Flit) (data : Option (List Byte)) : State :=
  let a := addrParts f.dest
  if a.1 != s.moduleNumber then misaddress s link
  else if a.2.1 ≤ 4 ∧ a.2.2 = 15 then s
  else if 4 < a.2.1 ∨ 11 < a.2.2 then misaddress s link
  else landAt s f.job 7 (12 * a.2.1 + a.2.2) (f.word / 1024) (f.word % 1024) s.now data

/-- A sync flit at its die's sync objects (R342, R356, R475): misaddressed where its Job does not own the object. Its arrive counts at
its stamp, or where it lands later, as it lands. -/
def landSync (s : State) (link : Nat) (f : Flit) : State :=
  let a := addrParts f.dest
  if a.1 != s.moduleNumber || decide (4 < a.2.1) || a.2.2 != 15 then misaddress s link
  else
    let obj := leAt f.payload 0 2
    match s.job f.job with
    | none => misaddress s link
    | some j =>
      if obj < leAt (s.jobSection j 7) 0 4 then
        let o : Op := { due := 0, phase := phaseResult, seq := 0, id := s.issues, tile := 12 * a.2.1, job := f.job, unit := 9,
                        record := 0, issued := s.now, act := .complete none }
        { s with issues := s.issues + 1 }.emit o (max f.stamp s.now) phaseResult (.arrive f.job obj (leAt f.payload 2 2) a.2.1)
      else misaddress s link

/-! ### Notices (R82, R348) -/

/-- A fault record's 32 bytes (R81). -/
def FaultRec.bytes (f : FaultRec) : List Byte :=
  leBytes 32 (packMsb [(64, f.stamp), (48, f.step), (10, f.module), (3, f.die), (4, f.tile), (4, f.unit), (8, f.code),
    (1, b2n f.secondary), (2, 0), (16, f.object), (32, f.record), (64, f.digest)])

/-- A fault record from its bytes (R81). -/
def faultFrom (bs : List Byte) : FaultRec :=
  let w := leAt bs 0 32
  { stamp := bitsOf w 255 192, step := bitsOf w 191 144, module := bitsOf w 143 134, die := bitsOf w 133 131,
    tile := bitsOf w 130 127, unit := bitsOf w 126 123, code := bitsOf w 122 115, secondary := bitOf w 114,
    object := bitsOf w 111 96, record := bitsOf w 95 64, digest := bitsOf w 63 0 }

/-- A job runs under the image whose digest a record carries. -/
def digestOf (s : State) (f : FaultRec) (j : Job) : Bool :=
  match s.jobImage j with | some i => digestHead i.digest == f.digest | none => false

/-- A step that a record belongs to (R82): its number, and the image digest of this module's job; or, as a partner's record carries the
digest of the partner's own image of the job, a step of a multi-module job that holds the record's stamp (log 86). -/
def recordFor (s : State) (f : FaultRec) (j : Job) (r : StepRun) : Bool :=
  r.number == f.step && (digestOf s f j ||
    (f.module != s.moduleNumber && !s.jobs.any (fun e => digestOf s f e.2) && decide (r.start ≤ f.stamp) && decide (f.stamp < r.stop)
      && (match s.jobImage j with | some i => bitOf (i.field 8 4) 3 | none => false)))

/-- A fault notice lands: its record joins the list of the step it names, before the list closes (R82, R83). -/
def landNotice (s : State) (f : FaultRec) : State :=
  { s with jobs := s.jobs.map (fun e =>
      let j := e.2
      (e.1, match j.run, j.closing with
        | some r, _ =>
          if recordFor s f j r && !r.listClosed then { j with run := some { r with faults := addFault r.faults f } }
          else match j.closing with
            | some c => if recordFor s f j c && !c.listClosed then { j with closing := some { c with faults := addFault c.faults f } } else j
            | none => j
        | none, some c =>
          if recordFor s f j c && !c.listClosed then { j with closing := some { c with faults := addFault c.faults f } } else j
        | none, none => j)) }

/-- The records of a notice flit (R348). -/
def noticeRecords (f : Flit) : List FaultRec :=
  ((List.range 7).filter (fun i => !allZero (slice f.payload (32 * i) 32))).map (fun i => faultFrom (slice f.payload (32 * i) 32))

/-- The fault records that a link has still to carry (R348): those of the steps of jobs that use the link and are not barred from
it (R352). -/
def owedNotices (s : State) (link : Nat) : List FaultRec :=
  let l := s.link link
  (s.jobs.flatMap (fun e =>
    if (lathLinks (s.jobSection e.2 4)).any (fun x => x.1 == link) && !e.2.barred.contains link then
      (e.2.run.map (fun r => r.faults)).getD [] ++ (e.2.closing.map (fun r => r.faults)).getD []
    else [])).filter (fun f => !l.noticed.contains f)

/-! ### Hello (R353, R354) -/

/-- The hello payload of this module on a link (R353). -/
def helloPayload (s : State) (link : Nat) : List Byte :=
  fitTo 0 240 (leBytes 2 (s.moduleNumber + 2 ^ 15 * b2n s.number.isSome + 2 ^ 14 * b2n s.quiescing) ++ leBytes 1 link
    ++ leBytes 1 (b2n s.variantB) ++ leBytes 8 s.serial ++ leBytes 8 s.idHash ++ leBytes 4 s.firmware)

/-- A hello from its payload (R353). -/
def helloFrom (bs : List Byte) (at_ : Nat) : Hello :=
  let w := leAt bs 0 2
  { number := bitsOf w 9 0, numbered := bitOf w 15, quiescing := bitOf w 14, link := leAt bs 2 1,
    variantB := leAt bs 3 1 == 1, serial := leAt bs 4 8, idHash := leAt bs 12 8, firmware := leAt bs 20 4, stamp := at_ }

/-- Two hellos carry the same contents, whenever they came. -/
def Hello.same (a b : Hello) : Bool := { a with stamp := 0 } == { b with stamp := 0 }

/-- A link's partner is a duplicate (R354): it has the module's own number, or its number stands with another serial
number on some link. -/
def duplicateHello (s : State) (h : Hello) : Bool :=
  (h.numbered && s.number == some h.number) ||
  (h.numbered && s.links.any (fun e => match e.2.hello with
    | some g => g.numbered && g.number == h.number && g.serial != h.serial && e.2.up
    | none => false))

/-- A capture is given up, and asked for again (R378). -/
def Job.dropCapture (j : Job) : Job := { j with capture := none, capAsk := j.capAsk.map (fun a => { a with step := none }) }

/-- A buddy becomes unavailable to a job as a link to it leaves ACTIVE (R375, R378): its capture has holders on that module, and no other
ACTIVE link of the job reaches it. -/
def State.losesBuddy (s : State) (link : Nat) (j : Job) : Bool :=
  let partner (l : Nat) : Option Nat := if (s.link l).state == .active then ((s.link l).hello.filter (fun h => h.numbered)).map (fun h => h.number) else none
  j.capture.isSome && leAt (s.jobConstant j 5) 4 1 == 1 && j.buddies.any (fun b => partner link == some b
    && !(lathLinks (s.jobSection j 4)).any (fun x => x.1 != link && partner x.1 == some b))

/-- A link is about to leave its trained state: jobs that run on it are barred from it (R352), captures that it carried to a buddy
are given up (R378), and a time source is lost (R36). -/
def leaveLink (s : State) (link : Nat) : State :=
  let uses (j : Job) : Bool := j.mode == .running && (lathLinks (s.jobSection j 4)).any (fun e => e.1 == link)
  let s1 := if (s.link link).state == .active then
      { s with jobs := s.jobs.map (fun e =>
          let x := if uses e.2 then { e.2 with barred := link :: e.2.barred } else e.2
          (e.1, if s.losesBuddy link e.2 then x.dropCapture else x)) } else s
  if s1.plumb.source = link ∧ (s.link link).up = true ∧ (s1.plumb.state = .locked ∨ s1.plumb.state = .acquiring) then
    { s1 with plumb := { s1.plumb with losing := true } } else s1

/-- A link enters DUPLICATE, in which it carries hellos and idle flits alone (R349, R352, R354). -/
def enterDuplicate (s : State) (link : Nat) : State :=
  (leaveLink s link).updLink link (fun l => { l with
    state := .duplicate, sched := [], best := [], lossQ := [], replay := l.replay.filter (fun x => x.flit.type == 5) })

/-- The links that name one module number with two serial numbers enter DUPLICATE (R354). -/
def markDuplicates (s : State) : State :=
  s.links.foldl (fun (st : State) e =>
    match e.2.hello with
    | some h =>
      if (e.2.state == .active || e.2.state == .hello) && duplicateHello s h && e.2.helloAcked then enterDuplicate st e.1 else st
    | none => st) s

/-- A link in HELLO whose exchange is complete enters ACTIVE, or DUPLICATE (R353, R354). -/
def settleHello (s : State) (link : Nat) : State :=
  let l := s.link link
  match l.hello with
  | some h =>
    if l.state == .hello && l.helloAcked then
      markDuplicates (if duplicateHello s h then enterDuplicate s link else s.updLink link (fun x => { x with state := .active }))
    else if l.state == .active then markDuplicates s
    else s
  | none => s

/-- A hello received (R353), at the hub endpoint that it names (R356). -/
def landHello (s : State) (link : Nat) (f : Flit) : State :=
  let h := helloFrom f.payload s.now
  if bitsOf f.dest 6 0 ≠ 127 then misaddress s link
  else
    settleHello (s.updLink link (fun l =>
      let x := match l.hello with | some g => if g.same h then g else h | none => h
      { l with hello := some x, lastHello := x })) link

/-! ### Best-effort flits (R359) -/

/-- A link may carry best-effort traffic onwards: ACTIVE, its signal not lost (R365), its partner not quiescing (R359). -/
def State.forwards (s : State) (link : Nat) : Bool :=
  let l := s.link link
  l.state == .active && !l.noSignal && !(match l.hello with | some h => h.quiescing | none => false)

/-- The link that a best-effort flit leaves on (R359): the one that its message left on, while that has not failed; else the
primary, else the alternate. -/
def bestLink (s : State) (key : Nat × Nat × Nat) : Option Nat :=
  let r := SMap.getD {} s.routes key.2.1
  match s.messages.find? (fun e => e.1 == key && s.forwards e.2) with
  | some e => some e.2
  | none =>
    if r.valid && s.forwards r.primary then some r.primary
    else if r.valid && r.altValid && s.forwards r.alternate then some r.alternate
    else none

/-- A best-effort flit sent onwards (R359). A message is known by the link it came on, 64 for hub firmware's own, its
destination and its number. -/
def sendOn (s : State) (link : Nat) (f : Flit) : State :=
  let key := (link, bitsOf f.dest 16 7, bitsOf f.word 18 10)
  match bestLink s key with
  | none => unroute s link
  | some k =>
    let rest := s.messages.filter (fun e => e.1 != key)
    { s.updLink k (fun l => { l with best := l.best ++ [f] }) with messages := if f.last then rest else (key, k) :: rest }

/-- A best-effort flit: delivered to hub firmware, forwarded, or discarded as unroutable (R359). -/
def routeFlit (s : State) (link : Nat) (f : Flit) : State :=
  let m := bitsOf f.dest 16 7
  if m = s.moduleNumber then
    if bitsOf f.dest 6 0 = 127 then { s with inbox := s.inbox ++ [f] } else misaddress s link
  else
    let hops := bitsOf f.word 22 19
    if hops = 0 then unroute s link
    else
      sendOn s link { f with word := f.word - 2 ^ 19 }

/-- A message of hub firmware sent to another module (R359): its flits leave with 15 hops remaining. -/
def sendBest (s : State) (module message : Nat) (bs : List Byte) : State :=
  let n := ceilDiv bs.length 240
  (List.range n).foldl (fun (st : State) i =>
    sendOn st 64 { type := 2, dest := hubAddr module, word := 15 * 2 ^ 19 + message % 512 * 1024 + i, last := i + 1 == n,
                      payload := fitTo 0 240 (slice bs (240 * i) 240) }) s

/-! ### Send points (R343 to R346, R348, R353) -/

/-- The Ack that the next flit carries (R342, R346): every number up to it has been received, apart from those that have been
requested, this flit's request among them. -/
def Link.ackNow (l : Link) : Nat :=
  match l.rxOwed.drop 1 with
  | q :: _ => (q + 4095) % 4096
  | [] => (l.rxNext + 4095) % 4096

/-- A flit with the link's current Ack and the Nak it owes, and its own sequence number (R345, R346). -/
def stampFlit (l : Link) (f : Flit) : Link × Flit :=
  let g := { f with ack := l.ackNow, nakValid := !l.rxOwed.isEmpty, nak := l.rxOwed.headD 0,
                    seq := if sequenced f.type then l.txSeq else 0 }
  ({ l with rxOwed := l.rxOwed.drop 1, txSeq := if sequenced f.type then (l.txSeq + 1) % 4096 else l.txSeq }, g)

/-- A flit sent at a point for the first time, kept for replay where it takes a sequence number (R346). -/
def sendNew (l : Link) (f : Flit) (at_ : Nat) : Link :=
  let r := stampFlit l f
  { r.1 with out := some r.2,
             replay := if sequenced f.type then r.1.replay ++ [{ flit := r.2, sentAt := at_ }] else r.1.replay }

/-- A flit sent again with the current Ack and Nak (R345, R346). -/
def sendAgain (l : Link) (x : Sent) (at_ : Nat) : Link :=
  let g := { x.flit with ack := l.ackNow, nakValid := !l.rxOwed.isEmpty, nak := l.rxOwed.headD 0 }
  { l with out := some g, rxOwed := l.rxOwed.drop 1, resends := satNat 24 (l.resends + 1),
           replay := l.replay.map (fun y => if y.flit.seq = x.flit.seq then
             { y with flit := g, sentAt := at_, resends := y.resends + 1, due := false } else y) }

/-- The scheduled flit that takes a point (R324, R345): of those whose point this is, or whose point has passed and whose grant holds
this one, the lowest partition's, then the earliest. -/
def nextScheduled (l : Link) (at_ : Nat) : Option QFlit :=
  firstMin (fun a b => decide (a.part < b.part) || (a.part == b.part && decide (a.point ≤ b.point)))
    (l.sched.filter (fun q => q.point == at_ || (decide (q.point < at_) && granted q.grant at_)))

/-- The replay buffer has room (R346). -/
def Link.room (l : Link) : Bool := decide (l.replay.length < 2048)

/-- The types that only a link in common time carries (R47): scheduled, loss and sync flits. -/
def scheduledType (type : Nat) : Bool := type == 1 || type == 6 || type == 7

/-- The ordinary send point of an ACTIVE link (R345). A resend of scheduled traffic waits for common time (R47). -/
def sendTraffic (l : Link) (at_ : Nat) : Link :=
  match (if l.scheduled && l.room then nextScheduled l at_ else none) with
  | some q => sendNew { l with sched := l.sched.erase q } q.flit at_
  | none =>
    match (if l.scheduled && l.room then l.lossQ.head? else none) with
    | some f => sendNew { l with lossQ := l.lossQ.drop 1 } f at_
    | none =>
      match l.replay.find? (fun x => x.due && (l.scheduled || !scheduledType x.flit.type)) with
      | some x => sendAgain l x at_
      | none =>
        match (if l.room then l.best.head? else none) with
        | some f => sendNew { l with best := l.best.drop 1 } f at_
        | none => sendNew l {} at_

/-- The notice point (R344, R348, R353): notices of an ACTIVE link, hellos until the exchange is complete, and one
hello a frame while ACTIVE. -/
def sendNotice (s : State) (link : Nat) : State :=
  let l := s.link link
  let dest := hubAddr ((l.hello.map (fun h => h.number)).getD 0)
  let hello : Flit := { type := 5, last := true, dest := dest, payload := helloPayload s link }
  let sayHello (x : Link) : Link :=
    { sendNew { x with helloSeq := some (x.helloSeq.getD x.txSeq) } hello s.now with
      helloFrame := some (frameOf s.now) }
  if !l.room then s.updLink link (fun x => if l.state == .active then sendTraffic x s.now else sendNew x {} s.now)
  else if l.state == .active then
    let owed := (owedNotices s link).take 7
    if !owed.isEmpty then
      s.updLink link (fun x => sendNew { x with noticed := x.noticed ++ owed }
        { type := 3, last := true, dest := dest, payload := fitTo 0 240 (owed.flatMap FaultRec.bytes) } s.now)
    else if l.helloFrame != some (frameOf s.now) then s.updLink link sayHello
    else s.updLink link (fun x => sendNew x {} s.now)
  else if l.state == .hello && !(l.helloAcked && l.hello.isSome) then s.updLink link sayHello
  else s.updLink link (fun x => sendNew x {} s.now)

/-- A cycle is one of the send points of a width, reserved ones among them (R343). -/
def isPoint (width c : Nat) : Bool :=
  let k := c % 1024
  let i := k / 12
  k % 12 == 0 && decide (i < 84) &&
  (match width with | 3 => true | 2 => i % 2 == 0 | 1 => i % 4 == 0 | _ => false)

/-- The timing point: point 80 of a frame's last period (R344). -/
def isTimingPoint (c : Nat) : Bool := c % 65536 == 63 * 1024 + 960

/-- What a link does at the clock's cycle, where that is a send point of it (R345). In HELLO and DUPLICATE it carries hellos and
idle flits alone (R349). -/
def sendPoint (s : State) (link : Nat) : State :=
  let l := s.link link
  if l.up && isPoint l.width s.now && !isTimingPoint s.now then
    if s.now % 1024 = 0 then sendNotice s link
    else if l.state == .active then (delaySend s l).updLink link (fun x => sendTraffic x s.now)
    else s.updLink link (fun x => match x.replay.find? (fun y => y.due && y.flit.type == 5) with
      | some y => sendAgain x y s.now
      | none => sendNew x {} s.now)
  else s
where
  /-- A pooled partition's transfer whose last flit leaves after its own point completes as much later (R324). -/
  delaySend (s : State) (l : Link) : State :=
    match (if l.scheduled && l.room then nextScheduled l s.now else none) with
    | some q => if q.flit.last && decide (q.point < s.now) && (s.part q.part).pooled then s.delay q.id (s.now - q.point) else s
    | none => s

/-- The timing flit of a link (R29, R344). -/
def timingFlit (s : State) (frame : Nat) : Flit :=
  let p := s.plumb
  let fwd := p.state == .locked || p.state == .holdover
  { type := 4, last := true,
    payload := fitTo 0 240 (leBytes 6 frame ++ leBytes 1 ((if fwd then p.hop else 15) + 16 * p.state.code) ++ leBytes 1 0
      ++ leBytes 6 (if p.state = .holdover then p.deadline else 0)) }

/-! ### Loss (R346) -/

/-- A flit without an Ack is sent again, or is lost beyond replay after its third resend (R346). -/
def timeoutFlit (l : Link) (seq at_ : Nat) : Link :=
  match l.replay.find? (fun x => x.flit.seq == seq) with
  | none => l
  | some x =>
    if at_ < x.sentAt + 2 * l.delay + 256 ∨ x.due then l
    else if x.resends < 3 then
      { l with replay := l.replay.map (fun y => if y.flit.seq = seq then { y with due := true } else y) }
    else loseFlit l x at_

/-- A flit with a failing CRC, or with an unassigned type, is an error (R342); those of a frame that fail their CRC are counted, and
more than 64 degrade the link (R366). -/
def failFlit (l : Link) (crc : Bool) (frame : Nat) : Link :=
  let n := (if l.crcFrame = frame then l.crcCount else 0) + b2n crc
  { l with errors := satNat 32 (l.errors + 1), crcFrame := frame, crcCount := n, degraded := l.degraded || decide (64 < n) }

/-! ### Training (R350, R365 to R367) -/

/-- The first rung that the operator's limit allows (R350, R367): rungs 0 to 3. -/
def firstRung (limit : Nat) : Nat := match limit with | 1 => 3 | 2 => 1 | _ => 0

/-- Lanes a rung needs: all four, or two. -/
def rungLanes (rung : Nat) : Nat := if rung = 0 ∨ rung = 2 then 4 else 2

/-- Lanes that are not excluded (R350). -/
def goodLanes (l : Link) : List Nat := (List.range 4).filter (fun i => !bitOf l.excluded i)

/-- A rung can be tried: its lanes have not been excluded (R350). -/
def rungOpen (l : Link) (rung : Nat) : Bool :=
  let g := goodLanes l
  if rungLanes rung = 4 then decide (g.length = 4)
  else (g.contains 0 && g.contains 1) || (g.contains 2 && g.contains 3)

/-- The next rung to try from one on, if any (R350). -/
def nextRung (l : Link) (rung : Nat) : Option Nat :=
  ((List.range 4).filter (fun r => decide (rung ≤ r))).find? (rungOpen l)

/-- The rung at which a link comes up (R350): the lower of the two that its partners reach, or the next below it that its own
lanes allow. -/
def commonRung (l : Link) (partner : Nat) : Nat :=
  let k := max l.rung partner
  (nextRung l k).getD k

/-- A link that leaves its state to train (R350, R366): what it carried is lost. -/
def Link.retrain (l : Link) (at_ : Nat) : Link :=
  { l with state := .training, width := 0, lanes := 0, timeClass := .pending, hello := none, helloAcked := false,
           helloSeq := none, rung := (nextRung { l with excluded := 0 } (firstRung l.limit)).getD (firstRung l.limit), excluded := 0,
           ladderFailed := false, noSignal := false, since := at_, waiting := false, sched := [], best := [], lossQ := [], replay := [], taken := [],
           rxMissing := [], rxOwed := [], partner := none, degraded := false, txSeq := 0, rxNext := 0 }

/-- A link with nothing on it (R349). -/
def Link.drop (l : Link) (st : LinkState) (at_ : Nat) : Link :=
  { l.retrain at_ with state := st, signal := if st = .down then 0 else l.signal }

/-- Width, rate and lanes of a rung (R343, R350). -/
def rungWidth (l : Link) (rung : Nat) : Nat × Bool × Nat :=
  let two := if (goodLanes l).contains 0 ∧ (goodLanes l).contains 1 then 3 else 12
  match rung with
  | 0 => (3, true, 15)
  | 1 => (2, true, two)
  | 2 => (2, false, 15)
  | _ => (1, false, two)

/-- The 24-byte link record (R369). -/
def Link.bytes (l : Link) : List Byte :=
  let h := l.lastHello
  leBytes 24 (packMsb [(64, h.serial), (32, l.errors), (24, l.resends), (8, l.lost), (8, l.misaddressed), (8, l.unroutable),
    (16, l.delay), (10, h.number), (6, h.link), (3, l.state.code), (2, l.width), (1, b2n l.rate112),
    (2, l.timeClass.code), (1, b2n l.degraded), (2, l.limit), (4, l.lanes), (1, 0)])

/-- The topology hash (R355): records of links that are not ACTIVE hold only the state. -/
def topologyHash (s : State) : List Byte :=
  sha256 (leBytes 2 s.moduleNumber ++ (List.range 64).flatMap (fun i =>
    let l := s.link i
    let h := l.hello.getD {}
    if l.state = .active then
      fitTo 0 16 (leBytes 1 l.state.code ++ leBytes 2 h.number ++ leBytes 1 h.link ++ leBytes 8 h.serial ++ leBytes 1 l.width)
    else fitTo 0 16 (leBytes 1 l.state.code)))

end Sys2Proof.Machine
end

