-- ==== Sys2Proof/Machine/Replies.lean ====
section
/-!
DEFINITION. Sys2Proof/Machine/Replies.lean: how collected commands complete (R334, R414 to R416), and what decides
whether the data plane runs (R33, R387, R439, R453, R460).
-/
namespace Sys2Proof.Machine

/-! ### Status codes (R416) -/

def stOk : Nat := 0x00
def stPending : Nat := 0x01
def stNotReady : Nat := 0x02
def stBadOpcode : Nat := 0x10
def stBadParam : Nat := 0x11
def stNoResource : Nat := 0x12
def stDenied : Nat := 0x20
def stContractFault : Nat := 0x30
def stDeviceFault : Nat := 0x31
def stStale : Nat := 0x32

/-- A command is still to be answered. -/
def Cmd.waiting (c : Cmd) : Bool := c.reply.isNone

/-- Answers every waiting command that fits (R414). -/
def State.answer (s : State) (fits : Cmd → Bool) (r : Cmd → Reply) : State :=
  { s with cmds := s.cmds.map (fun (c : Cmd) => if c.waiting && fits c then { c with reply := some (r c) } else c) }

/-- A command names a job of a partition. -/
def Cmd.names (c : Cmd) (k : Key) : Bool := c.keys.contains k

/-- The commands of one opcode at work for a job. -/
def Cmd.works (c : Cmd) (opcode jid : Nat) : Bool := c.started && c.opcode == opcode && c.names (.job jid)

/-- Answers the commands of an opcode at work for a job. -/
def State.answerJob (s : State) (opcode jid : Nat) (r : Reply) : State :=
  s.answer (fun c => c.works opcode jid) (fun _ => r)

/-- The newest posted step of a job as two result words, all ones where there is none (R416). -/
def newestWords (newest : Option Nat) : List Nat :=
  match newest with
  | some n => [n % 2 ^ 32, n / 2 ^ 32 % 2 ^ 32]
  | none => [2 ^ 32 - 1, 2 ^ 32 - 1]

/-- The result words of a bare status (R416): a RESULT_READ answered STALE gives the newest posted step. -/
def State.statusWords (s : State) (opcode jid status : Nat) : List Nat :=
  if status = stStale ∧ opcode = 0x0505 then newestWords (((s.job jid).bind (fun j => j.serve)).bind (fun v => v.newest)) else []

/-- Answers every waiting command for a job with a status: DEVICE_FAULT at a fence (R40, R384, R460), STALE at a
withdrawal (R334). -/
def State.answerAll (s : State) (jid status : Nat) (except : Nat → Bool) : State :=
  s.answer (fun c => c.names (.job jid) && !except c.opcode)
    (fun c => { status := status, stamp := s.now, words := s.statusWords c.opcode jid status })

/-- A reply without result words. -/
def State.reply (s : State) (status : Nat) : Reply := { status := status, stamp := s.now }

/-! ### The data plane runs -/

/-- The Plumb states in which the data plane runs (R33). -/
def PlumbState.runs : PlumbState → Bool
  | .locked | .holdover | .localTime => true
  | _ => false

/-- A quiesce has fenced the data plane (R453, R454). -/
def Quiesce.fences : Quiesce → Bool
  | .closing | .done => true
  | _ => false

/-- The data plane runs: the module is started, its Plumb state permits it, and no fence of the governor, of a quiesce or
of FAILED stands. -/
def State.dataPlane (s : State) : Bool :=
  s.start.stage == .running && s.plumb.state.runs && !s.power.tripped && !s.quiesce.fences && !s.failed

/-- A die is in service. -/
def State.dieUp (s : State) (die : Nat) : Bool := decide (die < 5) && !s.lostDies.contains die

/-- A cycle is a management-tick boundary (R49). -/
def isTick (t : Nat) : Bool := t % (16 * 65536) == 0

/-- The first frame boundary after a stamp (R49). -/
def tickNext (t : Nat) : Nat := (t / 65536 + 1) * 65536

/-- Cycles in one management tick. -/
def mt : Nat := 16 * 65536

end Sys2Proof.Machine
end

