-- ==== Sys2Proof/Machine/Records.lean ====
section
/-!
DEFINITION. Sys2Proof/Machine/Records.lean: the step record (R394), the step report (R395) and what they hold.
-/
namespace Sys2Proof.Machine

/-- The image's kind trains: its bodies carry a training map (R229). -/
def trains (kind : Nat) : Bool := kind == 1 || kind == 2 || kind == 4

/-- The binding as a step record holds it (R319, R394): 60 bytes, padded to 64. -/
def bindingBytes (b : SMap Nat) : List Byte :=
  fitTo 0 64 ((List.range 60).map (fun i => BitVec.ofNat 8 ((SMap.find b i).getD 0xFF)))

/-- The selection words of a job, in selector order, as they stand in scratchpad (R228). -/
def selectionBytes (s : State) (j : Job) : List Byte :=
  (selectors (s.jobConstant j 3)).flatMap (fun x =>
    Mem.read (s.tile ((j.tileOf x.tile).getD x.tile)).scratch (32 * x.block + 128) 4)

/-- Sum of the tiles' overflow counts (R224, R238). -/
def overflowSum (s : State) (j : Job) : Nat :=
  j.binding.foldl (fun n e => n + (s.tile e.2).stash.overflow) 0

/-- The training entry (R238). -/
def trainingEntry (s : State) (j : Job) (r : StepRun) (outcome : Nat) : List Byte :=
  leBytes 16 (packMsb [(48, r.count0), (1, b2n r.selector0), (3, outcome), (2, 0), (26, satNat 26 j.skipped),
    (12, (selectors (s.jobConstant j 3)).length), (36, satNat 36 (overflowSum s j))])

/-- A fate record's 16 bytes (R264). -/
def Fate.bytes (f : Fate) : List Byte :=
  leBytes 16 (packMsb [(48, f.step), (3, f.fate), (5, 0), (16, f.bucket), (10, f.module), (3, f.die), (4, f.tile), (12, f.part),
    (27, 0)])

/-- A fate record from its bytes (R264). -/
def fateFrom (bs : List Byte) : Fate :=
  let w := leNat bs
  { step := bitsOf w 127 80, fate := bitsOf w 79 77, bucket := bitsOf w 71 56, module := bitsOf w 55 46, die := bitsOf w 45 43,
    tile := bitsOf w 42 39, part := bitsOf w 38 27 }

/-- A step record (R394) from its parts. -/
def recordBytes (s : State) (j : Job) (r : StepRun) (stop outcome : Nat) (ledger : List (List Byte)) : List Byte :=
  let dig := match s.jobImage j with | some i => i.digest | none => []
  let desc := if serves j.kind then r.description else []
  let body := bindingBytes j.binding ++ fitTo 0 32 r.control ++ desc
    ++ (if trains j.kind then trainingEntry s j r r.updated ++ selectionBytes s j else [])
    ++ r.fates.flatMap Fate.bytes ++ ledger.flatten ++ (r.faults ++ j.outside).flatMap FaultRec.bytes
  let nf := (r.faults ++ j.outside).length
  leBytes 8 r.number ++ leBytes 8 r.start ++ leBytes 8 stop ++ leBytes 4 j.attempt ++ leBytes 1 outcome
    ++ leBytes 1 r.cls ++ leBytes 1 j.body ++ leBytes 1 ((j.replayRun.map (fun x => x.trace)).getD 0) ++ fitTo 0 32 dig
    ++ leBytes 4 nf ++ leBytes 4 r.fates.length ++ leBytes 4 ledger.length ++ leBytes 4 desc.length
    ++ leBytes 8 (128 + body.length) ++ List.replicate 40 0 ++ body

/-- A step record with a longer fault list (R83): its last bytes are fault records. -/
def refault (rec : List Byte) (old : Nat) (faults : List FaultRec) : List Byte :=
  let base := rec.take (rec.length - 32 * old)
  base.take 0x40 ++ leBytes 4 faults.length ++ slice base 0x44 12 ++ leBytes 8 (base.length + 32 * faults.length)
    ++ base.drop 0x58 ++ faults.flatMap FaultRec.bytes

/-! ### The step report (R395) -/

/-- Cycles of the first `len` cycles of a tile's step that lie in phase p (R240, R241). -/
def phaseCycles (map : List Byte) (img p len : Nat) : Nat :=
  let span (w : PhaseWindow) : Nat := min w.stop len - min w.start len
  let sum (ws : List PhaseWindow) : Nat := ws.foldl (fun n w => n + span w) 0
  let mine := (phaseWindows map).filter (fun w => w.tile == img)
  if p = 7 then len - sum (mine.filter (fun w => w.phase != 7)) else sum (mine.filter (fun w => w.phase == p))

/-- The tile phase summary (R241). -/
def tilePhases (map : List Byte) (img len : Nat) (t : Tile) : List Byte :=
  (List.range 8).flatMap (fun p =>
    leBytes 4 (satNat 32 (SMap.getD 0 t.issues p)) ++ leBytes 4 (satNat 32 (phaseCycles map img p len)))

/-- The die phase summary of the first `len` cycles of a step (R241): an abandoned step's spans end at its abandon boundary. -/
def diePhases (s : State) (j : Job) (map : List Byte) (len die : Nat) : List Byte :=
  if s.dieUp die then
    (List.range 8).flatMap (fun p =>
      let ws := (phaseWindows map).filter (fun w => w.tile / 12 == die && w.phase == p && decide (w.start < len))
      let span := match ws with
        | [] => 0
        | w :: rest => min len (rest.foldl (fun m x => max m x.stop) w.stop) - rest.foldl (fun m x => min m x.start) w.start
      let arr := (j.binding.filter (fun e => e.1 / 12 == die)).foldl (fun n e =>
        n + SMap.getD 0 (s.tile e.2).arrIssues p) 0
      leBytes 4 (satNat 32 arr) ++ leBytes 4 (satNat 32 span))
  else List.replicate 64 0

/-- The stash summary (R224). -/
def StashState.bytes (x : StashState) : List Byte :=
  leBytes 16 (packMsb [(32, x.kept), (32, x.placed), (32, x.overflow), (20, x.occupied), (12, 0)])

/-- The tile counts (R395). -/
def tileCounts (t : Tile) : List Byte :=
  leBytes 32 (packMsb [(64, t.hawk.gated), (64, t.float.gated), (32, satNat 32 t.misses), (32, satNat 32 t.regMisses), (64, 0)])

/-- One tile block (R395). -/
def tileBlock (map : List Byte) (img len : Nat) (t : Tile) : List Byte :=
  t.sum.bytes ++ t.stash.bytes ++ tilePhases map img len t ++ tileCounts t

/-- A saturating sum of signed 64-bit values. -/
def satSum (xs : List Int) : Int := clampInt (-(2 ^ 63)) (2 ^ 63 - 1) (xs.foldl (fun a x => a + x) 0)

/-- The distillation summary of one student (R210). -/
def distilSummary (s : State) (j : Job) (student harvested : Nat) : List Byte :=
  let ds := j.binding.map (fun e => SMap.getD ({} : DistSum) (s.tile e.2).distil student)
  let tot (f : DistSum → Nat) : Nat := ds.foldl (fun n d => n + f d) 0
  leBytes 32 (packMsb [(64, (BitVec.ofInt 64 (satSum (ds.map (fun d => d.kl)))).toNat),
    (64, (BitVec.ofInt 64 (satSum (ds.map (fun d => d.ce)))).toNat), (32, tot (fun d => d.rows)),
    (16, satNat 16 (tot (fun d => d.void))), (16, satNat 16 (tot (fun d => d.excluded))), (24, harvested), (2, student), (38, 0)])

/-- The reduction summary (R268). -/
def RedSum.bytes (x : RedSum) : List Byte :=
  leBytes 32 (packMsb [(32, satNat 32 x.accepted), (16, satNat 16 x.carried), (16, satNat 16 x.dropped), (32, satNat 32 x.nan),
    (16, x.closes), (32, x.selected), (32, x.padding), (32, x.clips), (16, x.foreign), (32, 0)])

/-- Students of the running body's distillation table (R179). -/
def State.students (s : State) (j : Job) : Nat :=
  let t := s.jobConstant j 1
  if t.isEmpty then 0 else leAt t 0 4

/-- The body has buckets (R245). -/
def State.hasBuckets (s : State) (j : Job) : Bool := !(s.jobSection j 5).isEmpty

/-- A step report (R395). -/
def reportBytes (s : State) (j : Job) (r : StepRun) (stop outcome harvested : Nat) : List Byte :=
  let map := s.jobConstant j 3
  let len := if outcome = 1 then stop - r.start else stop + 1 - r.start
  let n := s.students j
  let red := s.hasBuckets j
  let body := j.binding.flatMap (fun e => tileBlock map e.1 len (s.tile e.2))
    ++ (List.range 5).flatMap (diePhases s j map len)
    ++ (List.range n).flatMap (fun st => distilSummary s j st (if j.kind = 4 then harvested else 0))
    ++ (if red then r.red.bytes else [])
  let dig := match s.jobImage j with | some i => digestHead i.digest | none => 0
  leBytes 8 r.number ++ leBytes 8 r.start ++ leBytes 8 stop ++ leBytes 4 j.attempt ++ leBytes 1 outcome
    ++ leBytes 1 j.binding.length ++ leBytes 1 n ++ leBytes 1 (b2n red) ++ leBytes 8 dig ++ leBytes 8 (64 + body.length)
    ++ List.replicate 16 0 ++ body

/-- The stamp at which a step record's step ended, and the bytes that it takes with its report (R394, R395). -/
def StepRecord.age (x : StepRecord) : Nat := leAt x.record 0x10 8
/-- See `StepRecord.age`. -/
def StepRecord.size (x : StepRecord) : Nat := x.record.length + x.report.length

/-- Every step record of the module area. -/
def State.recorded (s : State) : List StepRecord := s.kept.map (fun e => e.2.2) ++ s.jobs.flatMap (fun e => e.2.records)

/-- A record is overwritten, with its report, by one of `n` bytes (R394, R395): with all that are no older it leaves no room. -/
def State.overwritten (s : State) (n : Nat) (x : StepRecord) : Bool :=
  decide (s.recordRoom < (s.recorded.filter (fun y => decide (x.age ≤ y.age))).foldl (fun m y => m + y.size) n)

/-- The records that stay where one of `n` bytes is written. -/
def State.staying (s : State) (n : Nat) (xs : List StepRecord) : List StepRecord := xs.filter (fun x => !s.overwritten n x)

/-- Room made for a record of `n` bytes (R394): the oldest go. -/
def State.makeRoom (s : State) (n : Nat) : State :=
  { s with kept := s.kept.filter (fun e => !s.overwritten n e.2.2),
           jobs := s.jobs.map (fun e => (e.1, { e.2 with records := s.staying n e.2.records })) }

/-- A step's record and report written at its end or at its abandon boundary (R394, R395). Faults outside any step
go with it (R476). -/
def writeRecord (s : State) (jid : Nat) (r : StepRun) (stop outcome harvested : Nat) (ledger : List (List Byte)) : State :=
  match s.job jid with
  | none => s
  | some j =>
    let x : StepRecord := { step := r.number, outcome := outcome, record := recordBytes s j r stop outcome ledger,
                            report := reportBytes s j r stop outcome harvested }
    (s.makeRoom x.size).setJob jid { j with outside := [], records := s.staying x.size j.records ++ [x] }

end Sys2Proof.Machine
end

