-- ==== Sys2Proof/Machine/Serving.lean ====
section
/-!
DEFINITION. Sys2Proof/Machine/Serving.lean: what hub firmware keeps and decides for serving: the serving table (R269),
pages (R274, R275), the prefix index (R284, R285), the planning of a step (R276 to R280), and what a step's end does to
the requests of its batch (R277, R296, R304, R310, R314).
-/
namespace Sys2Proof.Machine

/-! ### Tables and accessors -/

/-- A field of the serving table of a job's running body (R269). -/
def State.srv (s : State) (j : Job) (off len : Nat) : Nat := leAt (s.jobConstant j 4) off len

/-- The split of the i-th class, its move budget, and the prefill tiles per die of a split (R270). -/
def State.classSplit (s : State) (j : Job) (i : Nat) : Nat := s.srv j (112 + 8 * i) 1
/-- The move budget of the i-th class. -/
def State.moveBudget (s : State) (j : Job) (i : Nat) : Nat := s.srv j (112 + 8 * i + 1) 2
/-- The prefill tiles per die of a split. -/
def State.prefillTiles (s : State) (j : Job) (n k : Nat) : Nat := s.srv j (112 + 8 * n + 8 * k) 1

/-- The classes of a job's running body. -/
def State.classes (s : State) (j : Job) : List ShapeClass := shapeClasses (s.jobSection j 8)

/-- A training class (R204). -/
def ShapeClass.training (c : ShapeClass) : Bool := c.seqs == 0 && c.prompt == 0

/-- A request by its entry number. -/
def State.req (s : State) (e : Nat) : Req := SMap.getD {} s.requests e
/-- A request changed. -/
def State.updReq (s : State) (e : Nat) (f : Req → Req) : State :=
  { s with requests := SMap.set s.requests e (f (s.req e)) }
/-- A job's serving data changed, its page pool and its prefix index apart. -/
def State.updServe (s : State) (jid : Nat) (f : Serve → Serve) : State :=
  s.updJob jid (fun j => { j with serve := j.serve.map f })

/-- Two jobs of one partition run one body of one image, so that they name the same pool pages (R274). -/
def State.onePool (s : State) (a b : Job) : Bool :=
  a.part == b.part && a.body == b.body &&
    (match s.jobImage a, s.jobImage b with | some x, some y => x.digest == y.digest | _, _ => false)

/-- The page pool and the prefix index of a job's serving data, as another job of the pool has them (R275, R285). -/
def Serve.withPool (v w : Serve) : Serve := { v with refs := w.refs, cached := w.cached, index := w.index }

/-- The jobs once the pool of one of them stands as it does: one pool and one index per partition (R285). -/
def State.pooledJobs (s : State) (jid : Nat) : SMap Job :=
  match s.job jid with
  | none => s.jobs
  | some j =>
    match j.serve with
    | none => s.jobs
    | some v => s.jobs.map (fun e =>
        (e.1, if e.1 ≠ jid ∧ s.onePool j e.2 = true then { e.2 with serve := e.2.serve.map (fun w => w.withPool v) } else e.2))

/-- The jobs that share one job's pool brought up to it (R285). -/
def State.sharePool (s : State) (jid : Nat) : State := { s with jobs := s.pooledJobs jid }

/-- A job's serving data changed, its pool and its index among it, which every job of the pool shares (R285). -/
def State.updPool (s : State) (jid : Nat) (f : Serve → Serve) : State := (s.updServe jid f).sharePool jid
/-- A job's serving data. -/
def State.serve (s : State) (jid : Nat) : Serve := ((s.job jid).bind (fun j => j.serve)).getD {}

/-- The entries of a job, by number. -/
def State.entries (s : State) (jid : Nat) : List (Nat × Req) := s.requests.filter (fun e => e.2.job == jid)

/-- The modules that a job's tables name: where its Lath sends go, and the homes of its buckets (R245, R361). -/
def State.peers (s : State) (j : Job) : List Nat :=
  ((tEntries true (s.jobSection j 4)).filter (fun e => !e.receive)).map (fun e => e.dest / 128)
    ++ (bucketEntries (s.jobSection j 5)).map (fun b => b.module)

/-- Firmware serves a job here: this is the job's lowest-numbered module (R271), as far as the partners' hellos and the job's own
tables name them, and the job's other modules have no lower number (log 33). -/
def State.leads (s : State) (j : Job) : Bool :=
  match s.jobImage j with
  | none => true
  | some i =>
    if bitOf (i.field 8 4) 3 then
      (lathLinks (s.jobSection j 4)).all (fun l =>
        match (s.link l.1).hello with
        | some h => !h.numbered || decide (s.moduleNumber < h.number)
        | none => true)
        && (s.peers j).all (fun m => decide (s.moduleNumber ≤ m)) && j.lowest
    else true

/-! ### Planning order and budgets (R276, R297) -/

/-- The planning order (R276): priority, then deadline with none last, then the Admission field (R272), and where the field has wrapped
into equal values the lower entry (log 102). -/
def Req.before (a b : Nat × Req) : Bool :=
  decide (b.2.priority < a.2.priority) || (a.2.priority == b.2.priority &&
    (let da := if a.2.deadline = 0 then 2 ^ 64 else a.2.deadline
     let db := if b.2.deadline = 0 then 2 ^ 64 else b.2.deadline
     decide (da < db) || (da == db &&
      (let na := a.2.admission % 2 ^ 24
       let nb := b.2.admission % 2 ^ 24
       decide (na < nb) || (na == nb && decide (a.1 ≤ b.1))))))

/-- A tenant's counter. -/
def State.budget (s : State) (t : Nat) : Budget := SMap.getD {} s.budgets t

/-- A sequence is budget-held (R297); one of a counter that is no longer enabled for its partition is held back only until it is
cancelled (R293). -/
def State.budgetHeld (s : State) (r : Req) : Bool :=
  let b := s.budget r.tenant
  if b.enable && b.part == r.part then decide (b.balance ≤ 0) else !r.cancelled

/-- A sequence that runs (R272). -/
def Req.running (r : Req) : Bool := r.state == .prefill || r.state == .decode

/-! ### Pages (R275) -/

/-- Pages that a planner can take: free and cached (R275). -/
def Serve.available (v : Serve) (pool : Nat) : Nat := pool - v.refs.length

/-- One page taken: the lowest free one, or the page cached earliest (R275, log 34). -/
def Serve.takePage (v : Serve) (pool : Nat) : Option (Nat × Serve) :=
  match (List.range pool).find? (fun p => (SMap.find v.refs p).isNone && !v.cached.contains p) with
  | some p => some (p, { v with refs := SMap.set v.refs p 1 })
  | none =>
    match v.cached with
    | p :: rest => some (p, { v with cached := rest, refs := SMap.set v.refs p 1, index := v.index.filter (fun x => x.2 != p) })
    | [] => none

/-- Some pages taken, none where there are too few. -/
def Serve.takePages (v : Serve) (pool : Nat) : Nat → Option (List Nat × Serve)
  | 0 => some ([], v)
  | n + 1 =>
    match v.takePage pool with
    | none => none
    | some (p, v1) =>
      match v1.takePages pool n with
      | none => none
      | some (ps, v2) => some (p :: ps, v2)

/-- One reference to a page dropped (R275). -/
def Serve.dropPage (v : Serve) (p : Nat) : Serve :=
  let n := SMap.getD 0 v.refs p
  if 1 < n then { v with refs := SMap.set v.refs p (n - 1) }
  else if n = 0 then v
  else { v with refs := SMap.erase v.refs p,
                cached := if v.index.any (fun x => x.2 == p) then v.cached ++ [p] else v.cached }

/-- References to pages dropped. -/
def Serve.dropPages (v : Serve) (ps : List Nat) : Serve := ps.foldl (fun (w : Serve) p => w.dropPage p) v

/-- One reference more to a page of the index (R285). -/
def Serve.sharePage (v : Serve) (p : Nat) : Serve :=
  { v with refs := SMap.set v.refs p (SMap.getD 0 v.refs p + 1), cached := v.cached.filter (fun x => x != p) }

/-! ### Prefix hashing (R284, R285) -/

/-- The hash of a block (R284). -/
def blockHash (salt digest : List Byte) (set version : Nat) (before : List Byte) (tokens : List Nat) : List Byte :=
  sha256 (fitTo 0 32 salt ++ fitTo 0 32 digest ++ leBytes 4 (set * 2 ^ 16 + version) ++ fitTo 0 32 before
    ++ (fitTo 0 64 tokens).flatMap (leBytes 4))

/-- The hashes of the first n blocks of a sequence (R284). -/
def blockHashes (salt digest : List Byte) (r : Req) : Nat → List (List Byte)
  | 0 => []
  | n + 1 =>
    let hs := blockHashes salt digest r n
    hs ++ [blockHash salt digest r.set r.version (hs.getLastD []) (slice r.tokens (64 * n) 64)]

/-- The pages of the index that a prompt's blocks match, in order (R285): the block of the last position never. -/
def matchedPages (v : Serve) (hashes : List (List Byte)) : List Nat :=
  (hashes.map (fun h => (v.index.find? (fun x => x.1 == h)).map (fun x => x.2))).takeWhile Option.isSome |>.filterMap id

/-- Registers the pages of a sequence's full blocks in a range, the last not included (R285). -/
def registerBlocks (s : State) (jid e first last : Nat) : State :=
  let r := s.req e
  if r.summaryBit then s
  else
    match s.job jid with
    | none => s
    | some j =>
      let dig := match s.jobImage j with | some i => i.digest | none => []
      let salt := (s.budget r.tenant).salt
      let hs := blockHashes salt dig r (min last (r.length / 64))
      s.updPool jid (fun v =>
        (hs.zipIdx.drop first).foldl (fun (w : Serve) h =>
          match r.pages[h.2]? with
          | some p => if w.index.any (fun x => x.1 == h.1) || w.index.any (fun x => x.2 == p) then w
              else { w with index := w.index ++ [(h.1, p)] }
          | none => w) v)

/-! ### A step planned (R276 to R280) -/

/-- Positions of an entry that plans not yet ended will compute. -/
def Serve.coming (v : Serve) (e : Nat) : Nat :=
  v.plans.foldl (fun n p => p.rows.foldl (fun m r => if r.entry = e then m + r.tokens else m) n) 0

/-- A row in the making: its entry, first position, positions, whether it is prefill, the pages it took, and for a
join the state in which the entry was. -/
structure Draft where
  entry : Nat
  position : Nat
  tokens : Nat
  prefill : Bool
  fresh : List Nat := []
  shared : Nat := 0
  join : Bool := false
  deriving DecidableEq, Repr

/-- Pages that a run of positions needs beyond those held. -/
def pagesNeeded (position tokens held : Nat) : Nat := ceilDiv (position + tokens) 64 - held

/-- The row that a running or joining sequence would have: none at its Limit (R273, R277). -/
def draftOf (v : Serve) (e : Nat) (r : Req) (join : Bool) : Option Draft :=
  let c := v.coming e
  let pos := r.length + c
  let rem := r.remaining - c
  let n := if 0 < rem then rem else 1
  if r.limit ≤ pos then none
  else some { entry := e, position := pos, tokens := min n (r.limit - pos), prefill := decide (0 < rem), join := join }

/-- The planner's working state: the module, rows drafted in planning order, demands unmet, sequences held or deferred. -/
structure Planning where
  s : State
  rows : List Draft := []
  unmet : List (Draft × Nat) := []
  held : List Nat := []

/-- A draft's pages taken, if there are enough. -/
def grantPages (s : State) (jid pool : Nat) (d : Draft) : Option (State × Draft) :=
  let v := s.serve jid
  let need := pagesNeeded d.position d.tokens (s.req d.entry).pages.length
  match v.takePages pool need with
  | none => none
  | some (ps, v1) =>
    some ((s.updPool jid (fun _ => v1)).updReq d.entry (fun r => { r with pages := r.pages ++ ps }), { d with fresh := ps })

/-- A draft's fresh pages returned (R276, R278). -/
def returnPages (s : State) (jid : Nat) (d : Draft) : State :=
  (s.updPool jid (fun v => v.dropPages d.fresh)).updReq d.entry (fun r =>
    { r with pages := r.pages.take (r.pages.length - d.fresh.length) })

/-- Stage 1, leaves: finished sequences drop their references (R276). -/
def stageLeaves (s : State) (jid : Nat) : State :=
  (s.entries jid).foldl (fun (st : State) e =>
    if e.2.state = .finished ∧ e.2.left = false then
      (st.updPool jid (fun v => v.dropPages e.2.pages)).updReq e.1 (fun r => { r with pages := [], left := true })
    else st) s

/-- Stage 2, running demand (R276, R297). -/
def stageRunning (p : Planning) (jid pool : Nat) : Planning :=
  (sortBy Req.before ((p.s.entries jid).filter (fun e => e.2.running))).foldl (fun (q : Planning) e =>
    if q.s.budgetHeld e.2 then { q with held := q.held ++ [e.1] }
    else
      match draftOf (q.s.serve jid) e.1 e.2 false with
      | none => q
      | some d =>
        match grantPages q.s jid pool d with
        | some (s1, d1) => { q with s := s1, rows := q.rows ++ [d1] }
        | none => { q with unmet := q.unmet ++ [(d, pagesNeeded d.position d.tokens e.2.pages.length)] }) p

/-- The pages that a sequence in PARKING still holds: all until its moves are listed, then those still to move (R281). -/
def Req.pagesLeft (r : Req) : List Nat :=
  if r.places.isEmpty then r.pages else (r.pages.zipIdx.filter (fun x => r.moving.contains x.2)).map (fun x => x.1)

/-- Pages that parkings under way will release (R276): those to which sequences in PARKING alone refer. -/
def pendingRelease (s : State) (jid : Nat) : Nat :=
  let v := s.serve jid
  let ps := ((s.entries jid).filter (fun e => e.2.state == .parking)).flatMap (fun e => e.2.pagesLeft)
  (ps.eraseDups.filter (fun p => decide (SMap.getD 0 v.refs p ≤ ps.count p))).length

/-- An entry enters PARKING (R281). -/
def enterParking (s : State) (e ttl : Nat) : State := s.updReq e (fun r => { r with state := .parking, ttl := ttl })

/-- Demands tried again in order after pages came back. -/
def retryUnmet (p : Planning) (jid pool : Nat) : Planning :=
  p.unmet.foldl (fun (q : Planning) d =>
    match grantPages q.s jid pool d.1 with
    | some (s1, d1) => { q with s := s1, rows := q.rows ++ [d1] }
    | none => { q with unmet := q.unmet ++ [d] }) { p with unmet := [] }

/-- Stage 3, shortage (R276): at most `fuel` pauses. A budget-held sequence takes no part in it (R297). -/
def stageShortage (jid pool ttl : Nat) : Nat → Planning → Planning
  | 0, p => p
  | fuel + 1, p =>
    let need := p.unmet.foldl (fun n d => n + d.2) 0
    if need ≤ pendingRelease p.s jid then p
    else
      match (sortBy Req.before ((p.s.entries jid).filter (fun e =>
        e.2.running && !e.2.pages.isEmpty && !p.s.budgetHeld e.2))).getLast? with
      | none => p
      | some e =>
        let mine := p.rows.filter (fun d => d.entry == e.1)
        let s1 := mine.foldl (fun (st : State) d => returnPages st jid d) p.s
        stageShortage jid pool ttl fuel
          (retryUnmet { p with s := enterParking s1 e.1 ttl, rows := p.rows.filter (fun d => d.entry != e.1),
                               unmet := p.unmet.filter (fun d => d.1.entry != e.1) } jid pool)

/-- A sequence that may join (R276, R304): WAITING, released from PARKED or SUMMARY, or unparked; not one that was cancelled where it
did not run. -/
def Req.joins (r : Req) : Bool :=
  (!r.dropped && (r.state == .waiting || (r.released && !r.summarising && (r.state == .parked || r.state == .summary))))
    || (r.state == .unparking && r.moving.isEmpty)

/-- M of a summary: pooled rows (R282). -/
def pooledRows (pageBytes length : Nat) : Nat := if length ≤ 1024 then 0 else min 64 (401408 / (pageBytes / 64))

/-- A join granted, or none where pages are lacking (R276, R277, R283, R285). -/
def grantJoin (p : Planning) (jid pool pageBytes : Nat) (e : Nat × Req) : Option Planning :=
  let v := p.s.serve jid
  match e.2.state with
  | .waiting =>
    match p.s.job jid with
    | none => none
    | some j =>
      let dig := match p.s.jobImage j with | some i => i.digest | none => []
      let hs := blockHashes (p.s.budget e.2.tenant).salt dig e.2 ((e.2.tokens.length - 1) / 64)
      let shared := matchedPages v hs
      let s1 := (p.s.updPool jid (fun w => shared.foldl (fun (x : Serve) q => x.sharePage q) w)).updReq e.1 (fun r =>
        { r with pages := shared, length := 64 * shared.length, remaining := r.remaining - 64 * shared.length,
                 state := .prefill, left := false })
      match (draftOf (s1.serve jid) e.1 (s1.req e.1) true).bind (grantPages s1 jid pool) with
      | none => none
      | some (s2, d) => some { p with s := s2, rows := p.rows ++ [{ d with shared := shared.length }] }
  | .parked =>
    match v.takePages pool (ceilDiv e.2.length 64) with
    | none => none
    | some (ps, v1) =>
      -- park places of pages that lie beyond the sequence's Length serve no move
      let keep := e.2.places.filter (fun x => decide (x.1 < ps.length))
      let v2 := { v1 with parkUsed := v1.parkUsed.filter (fun q =>
        keep.any (fun x => x.2 == q) || !e.2.places.any (fun x => x.2 == q)) }
      some { p with s := (p.s.updPool jid (fun _ => v2)).updReq e.1 (fun r =>
        { r with state := .unparking, pages := ps, places := keep, moving := List.range ps.length, released := false,
                 lifeEnd := none }) }
  | .summary =>
    let m := pooledRows pageBytes e.2.length
    match v.takePages pool (if m = 0 then 0 else 1) with
    | none => none
    | some (ps, v1) =>
      let n := min e.2.length 1024
      -- without pooled rows no move reads the summary place, which is free at once
      let v2 := if m = 0 then { v1 with sumUsed := v1.sumUsed.filter (fun q => e.2.sumPlace != some q) } else v1
      some { p with s := (p.s.updPool jid (fun _ => v2)).updReq e.1 (fun r =>
        let kept := r.tokens.drop (r.length - r.base - n)
        { r with state := .unparking, pages := ps, moving := if m = 0 then [] else [0], released := false, lifeEnd := none,
                 summaryBit := true, length := 0, base := m, tokens := kept, remaining := kept.length, first := true,
                 sumPlace := if m = 0 then none else r.sumPlace }) }
  | .unparking =>
    match draftOf v e.1 e.2 true with
    | none => none
    | some d =>
      match grantPages p.s jid pool d with
      | none => none
      | some (s1, d1) =>
        some { p with s := s1.updReq e.1 (fun r => { r with state := if r.remaining = 0 then .decode else .prefill }),
                      rows := p.rows ++ [d1] }
  | _ => none

/-- Stage 4, joins (R276). -/
def stageJoins (p : Planning) (jid pool pageBytes : Nat) : Planning :=
  (sortBy Req.before ((p.s.entries jid).filter (fun e => e.2.joins))).foldl (fun (q : Planning) e =>
    if q.s.budgetHeld e.2 then { q with held := q.held ++ [e.1] }
    else
      match grantJoin q jid pool pageBytes (e.1, q.s.req e.1) with
      | some q1 => q1
      | none => { q with held := q.held ++ [e.1] }) p

/-- A join undone by a reduction (R278). -/
def undoJoin (p : Planning) (jid : Nat) (d : Draft) (was : Req) : Planning :=
  let s1 := returnPages p.s jid d
  let r := s1.req d.entry
  let s2 := if was.state = .waiting then s1.updPool jid (fun v => v.dropPages r.pages) else s1
  let s3 := s2.updReq d.entry (fun _ => if was.state = .waiting then was else { was with pages := r.pages })
  { p with s := s3, rows := p.rows.filter (fun x => x.entry != d.entry), held := p.held ++ [d.entry] }

/-- The rows fit a class's bounds (R75, R76). -/
def ShapeClass.covers (c : ShapeClass) (rows : List Draft) : Bool :=
  decide (rows.length ≤ c.seqs) &&
  decide (rows.foldl (fun n d => if d.prefill then n + d.tokens else n) 0 ≤ c.prompt) &&
  rows.all (fun d => decide (d.position + d.tokens ≤ c.position))

/-- The first class in table order, of a split, that covers the rows: its place in the table and itself (R278). -/
def pickClass (s : State) (j : Job) (split : Nat) (rows : List Draft) : Option (Nat × ShapeClass) :=
  ((s.classes j).zipIdx.find? (fun c => s.classSplit j c.2 == split && !c.1.training && c.1.covers rows)).map
    (fun c => (c.2, c.1))

/-- A row shortened, its pages beyond returned (R278). -/
def shorten (p : Planning) (jid : Nat) (d : Draft) (n : Nat) : Planning :=
  let keep := ceilDiv (d.position + n) 64 - (ceilDiv (d.position + d.tokens) 64 - d.fresh.length)
  let back := { d with fresh := d.fresh.drop keep }
  let d1 := { d with tokens := n, fresh := d.fresh.take keep }
  { p with s := returnPages p.s jid back, rows := p.rows.map (fun x => if x.entry = d.entry then d1 else x) }

/-- The first class that covers, with the batch reduced by R278 until one does. `before` holds the requests as they
stood before the joins. -/
def reduceBatch (j : Job) (jid split : Nat) (before : SMap Req) : Nat → Planning → Planning × Option (Nat × ShapeClass)
  | 0, p => (p, none)
  | fuel + 1, p =>
    match pickClass p.s j split p.rows with
    | some c => (p, some c)
    | none =>
      match p.rows.reverse.find? (fun d => d.join) with
      | some d => reduceBatch j jid split before fuel (undoJoin p jid d (SMap.getD {} before d.entry))
      | none =>
        match p.rows.reverse.find? (fun d => d.prefill && decide (1 < d.tokens)) with
        | some d =>
          let fits (n : Nat) : Bool :=
            (pickClass p.s j split (p.rows.map (fun x => if x.entry = d.entry then { x with tokens := n } else x))).isSome
          let n := ((List.range (d.tokens - 1)).reverse.map (fun i => i + 1)).find? fits
          reduceBatch j jid split before fuel (shorten p jid d (n.getD 1))
        | none =>
          match p.rows.getLast? with
          | none => (p, none)
          | some d =>
            reduceBatch j jid split before fuel
              { p with s := returnPages p.s jid d, rows := p.rows.dropLast, held := p.held ++ [d.entry] }

/-- Park places for a sequence in PARKING, or the start of its summary (R281). Its moves lie in a step after every step planned so
far. A sequence without pages is PARKED. -/
def placeParking (s : State) (jid parkPages : Nat) (e : Nat × Req) : State :=
  let v := s.serve jid
  if e.2.state ≠ .parking ∨ e.2.summarising = true ∨ e.2.places ≠ [] then s
  else
    let free := (List.range parkPages).filter (fun q => !v.parkUsed.contains q)
    if e.2.pages.length ≤ free.length then
      let qs := free.take e.2.pages.length
      (s.updServe jid (fun w => { w with parkUsed := w.parkUsed ++ qs })).updReq e.1 (fun r =>
        { r with places := qs.zipIdx.map (fun x => (x.2, x.1)), moving := List.range qs.length,
                 state := if qs.isEmpty then .parked else .parking,
                 lifeEnd := if qs.isEmpty then some (s.now + r.ttl * mt) else none })
    else s.updReq e.1 (fun r => { r with summarising := true })

/-- Every move that is still to be listed, in the order of R281: unpark and summary moves, then park moves. -/
def movesDue (s : State) (jid : Nat) : List Move :=
  let v := s.serve jid
  let listed (e k : Nat) : Bool := v.plans.any (fun p => p.moves.any (fun m => m.entry == e && m.block == k))
  let es := sortBy Req.before (s.entries jid)
  let due (want : ReqState) : List Move :=
    (es.filter (fun e => e.2.state == want && !e.2.summarising)).flatMap (fun e =>
      (e.2.moving.filter (fun k => !listed e.1 k)).map (fun k =>
        let sum := want == .unparking && e.2.summaryBit && e.2.sumPlace.isSome
        { kind := if want = .parking then 0 else if sum then 2 else 1, page := e.2.pages.getD k 0,
          place := if sum then e.2.sumPlace.getD 0 else SMap.getD 0 e.2.places k, entry := e.1, block := k }))
  due .unparking ++ due .parking

/-- The private-expert slots that an entry's version binds (R279, R286). -/
def bindingOf (v : Serve) (r : Req) : List Nat :=
  if r.set = 0 then []
  else match v.versions.find? (fun x => x.set == r.set && x.version == r.version) with
    | some x => x.slots
    | none => []

/-- A batch row from its draft (R205, R206, R279, R304). -/
def rowOf (s : State) (j : Job) (jid : Nat) (d : Draft) : PlanRow :=
  let r := s.req d.entry
  { entry := d.entry, slot := r.head, position := d.position, tokens := d.tokens,
    harvest := j.kind == 4 && !d.prefill && (s.budget r.tenant).consent && !r.summaryBit, discard := r.cancelled,
    prefill := d.prefill, summary := r.summaryBit, tenant := r.tenant, counts := r.counts, countsDie := r.countsDie,
    binding := bindingOf (s.serve jid) r }

/-- The 64 bytes of a batch row (R279). -/
def PlanRow.bytes (r : PlanRow) : List Byte :=
  leBytes 64 (packMsb [(14, r.entry), (14, r.slot), (19, r.position), (19, r.tokens), (1, b2n r.harvest), (1, b2n r.discard),
    (1, b2n r.prefill), (1, b2n r.summary), (12, r.tenant), (30, 0), (32, r.counts), (3, r.countsDie), (109, 0),
    (128, r.binding.zipIdx.foldl (fun n x => n + x.1 * 2 ^ (8 * x.2)) 0), (16, 2 ^ r.binding.length - 1), (112, 0)])

/-- The 16 bytes of a move entry (R279). -/
def Move.bytes (m : Move) : List Byte := leBytes 16 (packMsb [(2, m.kind), (62, 0), (32, m.page), (32, m.place)])

/-- The batch description, without the zeros that follow (R279). -/
def StepPlan.bytes (p : StepPlan) : List Byte :=
  leBytes 8 p.step ++ leBytes 1 p.cls ++ leBytes 1 p.split ++ leBytes 2 p.rows.length ++ leBytes 2 p.moves.length
    ++ List.replicate 50 0 ++ p.rows.flatMap PlanRow.bytes ++ p.moves.flatMap Move.bytes

/-- Writes a job's bytes at a tier-1 window offset of one die (R274, R279). -/
def State.writeWindow (s : State) (j : Job) (die : Nat) (tier2 : Bool) (off : Nat) (bs : List Byte) : State :=
  match (s.part j.part).windowAddr die tier2 off bs.length with
  | some a => s.writeDie die tier2 (s.part j.part).keys a bs
  | none => s

/-- A planned step whose description goes out as its rows and moves now stand (R279). -/
def State.drawn (s : State) (j : Job) (p : StepPlan) : StepPlan := { p with sent := fitTo 0 (s.srv j 0x4C 4) p.bytes }

/-- The batch description written into its buffer (R279). -/
def writeDescription (s : State) (j : Job) (p : StepPlan) : State :=
  s.writeWindow j (s.srv j 0x3E 2 / 12) false (32 * s.srv j 0x40 8 + p.step % 2 * s.srv j 0x4C 4) p.sent

/-- The page list of an entry written on every compute die (R274). -/
def writePageList (s : State) (j : Job) (e : Nat) : State :=
  let r := s.req e
  (List.range 5).foldl (fun (st : State) die =>
    st.writeWindow j die false (32 * s.srv j 0x10 8 + 16384 * r.head)
      ((fitTo (2 ^ 32 - 1) 4096 r.pages).flatMap (leBytes 4))) s

/-- The first training class, with its place in the table (R204). -/
def trainingClass (s : State) (j : Job) : Option (ShapeClass × Nat) := (s.classes j).zipIdx.find? (fun c => c.1.training)

/-- Every sequence in PARKING takes its park places, or the start of its summary (R281). -/
def placeAll (s : State) (jid parkPages : Nat) : State :=
  (s.entries jid).foldl (fun (st : State) (e : Nat × Req) => placeParking st jid parkPages (e.1, st.req e.1)) s

/-- A step lies among the training steps of its period (R204). -/
def isTrainingStep (s : State) (j : Job) (index : Nat) : Bool :=
  let t := s.jobConstant j 1
  let ns := leAt t 0x0C 2
  let nt := leAt t 0x0E 2
  j.kind == 4 && decide (0 < ns + nt) && decide (ns ≤ index % (ns + nt))

/-- The lowest free result place (R311). -/
def Serve.freePlace (v : Serve) : Option Nat := (List.range v.places).find? (fun p => !v.usedPlaces.contains p)

/-- Plans step `step` of a job from the Request Table as it stands, to begin at stamp `start` (R276 to R280, R297,
R311). -/
def planStep (s0 : State) (jid step start : Nat) : State :=
  match s0.job jid with
  | none => s0
  | some j =>
    let v0 := s0.serve jid
    let ahead := v0.plans.filter (fun (p : StepPlan) => match j.run with | some r => p.step != r.number | none => true)
    if isTrainingStep s0 j (v0.begun + ahead.length) then
      match trainingClass s0 j with
      | none => s0
      | some c =>
        -- no rows (R303); leaves and moves as in any step (R276, R281)
        let s1 := placeAll (stageLeaves s0 jid) jid (s0.srv j 0x1C 4)
        let p : StepPlan := s1.drawn j { step := step, start := start, frames := c.1.frames, cls := c.1.cls,
                                         split := s0.classSplit j c.2, rows := [],
                                         moves := (movesDue s1 jid).take (s0.moveBudget j c.2), training := true }
        writeDescription (s1.updServe jid (fun v => { v with plans := v.plans ++ [p] })) j p
    else
      let pool := s0.srv j 0 4
      let pageBytes := s0.srv j 4 4
      let s1 := stageLeaves s0 jid
      let s2 := (s1.entries jid).foldl (fun (st : State) e => st.updReq e.1 (fun r => { r with held := false })) s1
      let all := ((s2.entries jid).filter (fun e => e.2.running || e.2.joins)).map (fun e => e.1)
      let p1 : Planning := match v0.freePlace with
        | none => { s := s2, held := all }
        | some _ =>
          let p := stageRunning { s := s2 } jid pool
          let q := stageShortage jid pool (s0.srv j 0x34 4) (s2.requests.length + 1) p
          let rows := sortBy (fun (a b : Draft) => Req.before (a.entry, q.s.req a.entry) (b.entry, q.s.req b.entry)) q.rows
          stageJoins { q with rows := rows, unmet := [], held := q.held ++ q.unmet.map (fun d => d.1.entry) } jid pool pageBytes
      let before := s2.requests
      let red : Planning × Option (Nat × ShapeClass) := reduceBatch j jid v0.split before (2 * p1.rows.length + 2) p1
      let p2 := red.1
      let c : Option (Nat × ShapeClass) := match red.2 with
        | some c => some c
        | none => ((s0.classes j).zipIdx.find? (fun (c : ShapeClass × Nat) =>
            s0.classSplit j c.2 == v0.split && !c.1.training)).map (fun (c : ShapeClass × Nat) => (c.2, c.1))
      match c with
      | none => s0
      | some (ci, cl) =>
        let s3 := placeAll p2.s jid (s0.srv j 0x1C 4)
        let drafts := if red.2.isSome then p2.rows else []
        let rows := (sortBy (fun (a b : Draft) => Req.before (a.entry, s3.req a.entry) (b.entry, s3.req b.entry)) drafts).map
          (rowOf s3 j jid)
        let place := if rows.isEmpty then none else v0.freePlace
        let p : StepPlan := s0.drawn j { step := step, start := start, frames := cl.frames, cls := cl.cls, split := v0.split, rows := rows,
                                         moves := (movesDue s3 jid).take (s0.moveBudget j ci),
                                         held := satNat 16 p2.held.length, place := place }
        let s4 := s3.updServe jid (fun v =>
          { v with plans := v.plans ++ [p], emptyPlan := rows.isEmpty,
                   usedPlaces := match place with | some q => v.usedPlaces ++ [q] | none => v.usedPlaces })
        let s5 := p2.held.foldl (fun (st : State) e => st.updReq e (fun r => { r with held := true })) s4
        let s6 := rows.foldl (fun (st : State) (r : PlanRow) =>
          writePageList (st.updReq r.entry (fun x => { x with lastPlanned := some step })) j r.entry) s5
        writeDescription s6 j p

/-! ### The end of a serving step -/

/-- The sampling-counts block of an entry (R305). -/
def countsBlock (s : State) (j : Job) (r : Req) (n : Nat) : List Byte :=
  match (s.part j.part).windowAddr r.countsDie false (32 * r.counts) n with
  | some a => s.readDie r.countsDie false [] a n
  | none => List.replicate n 0

/-- A token is one of the entry's stop tokens (R305, R310). -/
def isStop (s : State) (j : Job) (r : Req) (token : Nat) : Bool :=
  let h := countsBlock s j r 128
  (List.range (leAt h 0x20 1)).any (fun i => leAt h (0x40 + 4 * i) 4 == token)

/-- Why a sequence stops at a token, by R307 and R310: 0 continues. -/
def stopReason (s : State) (j : Job) (r : Req) (position : Nat) (o : RowOut) : Nat :=
  match o.token with
  | none => 3
  | some t => if isStop s j r t then 1 else if position + 1 = r.limit then 2 else 0

/-- The 16 bytes of a record's row (R314). -/
def recordRow (token position entry tenant stop : Nat) (first prefill late summary harvested : Bool) : List Byte :=
  leBytes 16 (packMsb [(32, token), (19, position), (14, entry), (12, tenant), (2, stop), (1, b2n first), (1, b2n prefill),
    (1, b2n late), (1, b2n summary), (1, b2n harvested), (44, 0)])

/-- A ledger entry (R208). -/
def ledgerEntry (step : Nat) (r : PlanRow) (o : RowOut) (abandoned excluded : Bool) (u : Nat) : List Byte :=
  leBytes 16 (packMsb [(48, step), (18, r.position), (14, r.entry), (12, r.tenant), (4, if abandoned then 0 else o.students),
    (1, b2n abandoned), (1, b2n excluded), (1, b2n o.void), (5, 0), (24, u % 2 ^ 24)])

/-- The state of a sequence that has finished (R273, R304). -/
def finishState (r : Req) : ReqState := if r.converse && !r.cancelled then .parking else .finished

/-- An entry whose sequence has finished (R273, R281). One that was in PARKING already stays there with the lifetime it was given if
it is to be parked or was cancelled there; else its parking ends: the places are free, and the pages that it still holds leave with it
(log 104). -/
def finishReq (s : State) (jid e ttl : Nat) : State :=
  let r := s.req e
  let st := finishState r
  if r.state = .parking then
    if st = .parking ∨ r.dropped = true then s
    else (s.updServe jid (fun v => { v with
        parkUsed := v.parkUsed.filter (fun q => !(r.places.any (fun x => x.2 == q))) })).updReq e (fun x => { x with
        state := .finished, pages := r.pagesLeft, places := [], moving := [], summarising := false, doneAt := s.now })
  else s.updReq e (fun x => { x with state := st, ttl := ttl })

/-- One batch row at its step's end (R277, R296, R304, R309, R310, R314): the state, and the record's row if one is
listed, with the positions charged. -/
def endRow (s : State) (jid ttl stop : Nat) (row : PlanRow) (o : RowOut) : State × List (List Byte) × Nat :=
  match s.job jid with
  | none => (s, [], 0)
  | some j =>
    let r := s.req row.entry
    if row.finished then (s, [], 0)
    else
      let len := r.length + row.tokens
      let rem := if row.prefill then r.remaining - row.tokens else r.remaining
      let yields := !row.prefill || rem == 0
      let asked := if yields then stopReason s j r len o else 0
      -- a sequence also finishes when Length reaches Limit (R273)
      let reason := if asked = 0 ∧ r.limit ≤ len then 2 else asked
      let ended := reason != 0
      let toks := match (if yields then o.token else none) with
        | some t => r.tokens ++ [t]
        | none => r.tokens
      let s0 := s.updReq row.entry (fun x => { x with
        length := len, remaining := rem, tokens := toks, first := x.first && !yields,
        state := if r.state = .prefill ∧ rem = 0 then .decode else r.state })
      let s1 := registerBlocks s0 jid row.entry (r.length / 64) (len / 64)
      let s2 := if ended then finishReq s1 jid row.entry ttl else s1
      let s3 := { s2 with budgets := SMap.upd {} s2.budgets row.tenant (fun b =>
        { b with balance := b.balance - 256 * (row.tokens : Nat) }) }
      let s4 := if ended then
          s3.updServe jid (fun v => { v with plans := v.plans.map (fun (p : StepPlan) =>
            { p with rows := p.rows.map (fun x => if x.entry = row.entry then { x with discard := true, finished := true, harvest := false } else x) }) })
        else s3
      let late := r.deadline != 0 && decide (r.deadline < stop)
      let tok := match (if yields then o.token else none) with | some t => t | none => 2 ^ 32 - 1
      let pos := if yields && (o.token.isSome || !row.prefill) then len else len - 1
      let out := if row.discard then []
        else [recordRow tok pos row.entry row.tenant reason (yields && o.token.isSome && r.first) row.prefill late row.summary row.harvest]
      (s4, out, row.tokens)

/-- A move completes in firmware's records at its step's last cycle (R280, R281, R283). A park move of a sequence whose parking has
ended with it serves nothing; a page that an unpark move has written is registered where its block is full (R285). -/
def endMove (s : State) (jid : Nat) (m : Move) : State :=
  let r := s.req m.entry
  let left := r.moving.filter (fun k => k != m.block)
  if m.kind = 0 then
    if r.state ≠ .parking ∨ r.moving.contains m.block = false then s
    else
    let s1 := s.updPool jid (fun v => v.dropPage m.page)
    if left.isEmpty then
      if r.dropped then
        (s1.updServe jid (fun v => { v with parkUsed := v.parkUsed.filter (fun q => !(r.places.any (fun x => x.2 == q))) })).updReq
          m.entry (fun x => { x with moving := [], pages := [], places := [], state := .finished, left := true })
      else s1.updReq m.entry (fun x => { x with
        moving := [], pages := [], state := .parked, lifeEnd := some (s.now + x.ttl * mt) })
    else s1.updReq m.entry (fun x => { x with moving := left })
  else
    let s1 := s.updServe jid (fun v =>
      if m.kind = 1 then { v with parkUsed := v.parkUsed.filter (fun q => q != m.place) }
      else { v with sumUsed := v.sumUsed.filter (fun q => q != m.place) })
    let s2 := s1.updReq m.entry (fun x => { x with
      moving := left, places := SMap.erase x.places m.block, length := if m.kind = 2 then x.base else x.length
      sumPlace := if m.kind = 2 then none else x.sumPlace })
    if m.kind = 1 then registerBlocks s2 jid m.entry m.block (m.block + 1) else s2

/-- The plan of a job's running step, if it has one. -/
def Serve.current (v : Serve) (step : Nat) : Option StepPlan := v.plans.find? (fun p => p.step == step)

/-- The batch descriptions that no beat has read yet, written again where a sequence of theirs has finished: its rows carry
Discard and are no harvested rows (R205, R276, R279). -/
def rewriteDiscards (s : State) (jid stop : Nat) : State :=
  match s.job jid with
  | none => s
  | some j =>
    let again (p : StepPlan) : Bool := decide (stop + 65536 < p.start) && p.rows.any (fun r => r.finished)
    let s1 := s.updServe jid (fun v => { v with plans := v.plans.map (fun p => if again p then s.drawn j p else p) })
    ((s1.serve jid).plans.filter again).foldl (fun (st : State) p => writeDescription st j p) s1

/-- The end of a serving step: its outcomes enter the Request Table, its tenants are charged, its moves are done, its
record waits to be posted (R276, R280, R296, R313). Answers the ledger entries and the harvested rows too. -/
def endServing (s : State) (jid : Nat) (run : StepRun) (stop : Nat) (outs : List RowOut) :
    State × List (List Byte) × Nat :=
  match s.job jid with
  | none => (s, [], 0)
  | some j =>
    match (s.serve jid).current run.number with
    | none => (s, [], 0)
    | some p =>
      let s0 := s.updServe jid (fun v => { v with plans := v.plans.filter (fun x => x.step != run.number) })
      let pairs := p.rows.zipIdx.map (fun x => (x.1, outs.getD x.2 {}))
      let res := pairs.foldl (fun (acc : State × List (List Byte) × Nat × List Nat) x =>
        let y := endRow acc.1 jid (s.srv j 0x34 4) stop x.1 x.2
        (y.1, acc.2.1 ++ y.2.1, acc.2.2.1 + y.2.2, if y.2.1.isEmpty then acc.2.2.2 else acc.2.2.2 ++ [x.1.entry]))
        (s0, [], 0, [])
      let s1 := rewriteDiscards (p.moves.foldl (fun (st : State) m => endMove st jid m) res.1) jid stop
      let s2 := match p.place with
        | some q => s1.updServe jid (fun v => { v with ended := v.ended ++ [{
            step := run.number, start := run.start, stop := stop, cls := p.cls, held := p.held, place := q,
            charged := res.2.2.1, rows := res.2.1, entries := res.2.2.2 }] })
        | none => s1
      let s3 := res.2.2.2.foldl (fun (st : State) e => st.updReq e (fun r => { r with lastListed := some run.number })) s2
      let excluded := (j.replayRun.map (fun x => x.excluded)).getD []
      let ledger := (pairs.filter (fun x => x.1.harvest)).map (fun x =>
        ledgerEntry run.number x.1 x.2 false (excluded.contains x.1.tenant) run.count0)
      (s3, ledger, ledger.length)

/-- An abandoned serving step: its place is free again, its moves are still to be made, every plan made beyond it is
dropped (R83, R84, R280, R311). Answers the ledger entries (R208). -/
def dropPlans (s : State) (jid : Nat) (run : Option StepRun) : State × List (List Byte) :=
  let v := s.serve jid
  let ledger := match run with
    | some r =>
      match v.current r.number with
      | some p => (p.rows.filter (fun x => x.harvest)).map (fun x => ledgerEntry r.number x {} true false r.count0)
      | none => []
    | none => []
  let freed := v.plans.filterMap (fun p => p.place)
  (s.updServe jid (fun w => { w with plans := [], usedPlaces := w.usedPlaces.filter (fun q => !freed.contains q) }), ledger)

end Sys2Proof.Machine
end

