-- ==== Sys2Proof/Machine/Snapshots.lean ====
section
/-!
DEFINITION. Sys2Proof/Machine/Snapshots.lean: the snapshot manifest (R370), captures (R371, R372), control words (R374),
holders and places (R375 to R377), requests (R373) and the reading of places (R389, R390).
-/
namespace Sys2Proof.Machine

/-! ### Tiles and dust sheets (R319, R327, R473) -/

/-- Image tiles that a body's programs use, in increasing order (R473). -/
def Image.tiles (i : Image) (body : Nat) : List Nat :=
  (List.range 60).filter (fun t => i.sections.any (fun x => x.body == body && x.type == 1 && x.flags % 64 == t))

/-- The image tiles of a job's running body. -/
def State.jobTiles (s : State) (j : Job) : List Nat := ((s.jobImage j).map (fun i => i.tiles j.body)).getD []

/-- Bytes of a tile's share of a dust sheet. -/
def dustShare : Nat := 26 * 2 ^ 20

/-- Where an image tile's share of the dust sheet begins: its die and die address. -/
def dustAt (s : State) (j : Job) (img : Nat) : Option (Nat × Nat) :=
  let die := img / 12
  let i := ((s.jobTiles j).filter (fun t => t / 12 == die)).idxOf img
  (j.dust.bind (fun d => (s.part j.part).windowAddr die false (32 * d.getD die 0 + dustShare * i) dustShare)).map (fun a => (die, a))

/-- A context's dust sheet as that of a context whose tiles are all zero (R321, R327). -/
def clearDust (s : State) (j : Job) : State :=
  (s.jobTiles j).foldl (fun (st : State) img =>
    match dustAt s j img with
    | some (die, a) => { st with tier1 := SMap.upd [] st.tier1 die (fun m => Mem.zero m a dustShare) }
    | none => st) s

/-! ### The manifest (R370) -/

/-- A manifest item (R370). -/
structure ManItem where
  item : Nat
  kind : Nat
  die : Nat
  tile : Nat
  tensor : Nat
  off : Nat
  len : Nat
  deriving DecidableEq, Repr

/-- A manifest item from its 256 bits (R370). -/
def manItemOf (w : Nat) : ManItem :=
  { item := bitsOf w 255 232, kind := bitsOf w 231 229, die := bitsOf w 228 226, tile := bitsOf w 225 220,
    tensor := bitsOf w 215 192, off := bitsOf w 191 156, len := bitsOf w 155 120 }

/-- The items of a manifest. -/
def manItems (bs : List Byte) : List ManItem := (recordsAt bs 64 32 (leAt bs 0 4)).map manItemOf

/-- The manifest of a job's running body, empty where it has none. -/
def State.manifest (s : State) (j : Job) : List Byte := s.jobConstant j 5

/-- A job of this body can be snapshotted (R370). -/
def State.hasManifest (s : State) (j : Job) : Bool := !(s.manifest j).isEmpty

/-- Bytes of a job's window (R160): zeros where the range lies outside it. -/
def State.readWindow (s : State) (j : Job) (die : Nat) (tier2 : Bool) (off n : Nat) : List Byte :=
  match (s.part j.part).windowAddr die tier2 off n with
  | some a => s.readDie die tier2 (s.part j.part).keys a n
  | none => List.replicate n 0

/-- The window offset of a parameter entry's committed set (R232, R370). -/
def committedSet (s : State) (j : Job) (m : ManItem) : Nat :=
  match (paramEntries (s.jobConstant j 3)).find? (fun e =>
      e.tensor == m.tensor && e.owner && e.die == m.die && 16 * e.elements == m.len) with
  | some e => 32 * (if j.selector then e.setY else e.setX)
  | none => 0

/-- The bytes of an item as they stand (R370, R371): a scratchpad item of a swapped-out context in its dust sheet (R327, log 97). -/
def itemBytes (s : State) (j : Job) (m : ManItem) : List Byte :=
  match m.kind with
  | 0 => s.readWindow j m.die true (committedSet s j m) m.len
  | 2 => s.readWindow j m.die true (32 * m.off) m.len
  | 3 =>
    if j.resident then Mem.read (s.tile ((j.tileOf m.tile).getD m.tile)).scratch (32 * m.off) m.len
    else match dustAt s j m.tile with
      | some (die, a) => Mem.read (SMap.getD [] s.tier1 die) (a + 32 * m.off) m.len
      | none => List.replicate m.len 0
  | _ => s.readWindow j m.die false (32 * m.off) m.len

/-- An item written where the running body places it (R388): a scratchpad item of a swapped-out context to its dust sheet (log 97). -/
def writeItem (s : State) (j : Job) (m : ManItem) (bs : List Byte) : State :=
  match m.kind with
  | 0 => s.writeWindow j m.die true (committedSet s j m) bs
  | 2 => s.writeWindow j m.die true (32 * m.off) bs
  | 3 =>
    if j.resident then s.updTile ((j.tileOf m.tile).getD m.tile) (fun t => t.store (32 * m.off) (bs.map some))
    else match dustAt s j m.tile with
      | some (die, a) => { s with tier1 := SMap.upd [] s.tier1 die (fun x => Mem.write x (a + 32 * m.off) bs) }
      | none => s
  | _ => s.writeWindow j m.die false (32 * m.off) bs

/-! ### Module records (R372) -/

/-- The 64-byte job record. -/
def Job.record (j : Job) : List Byte :=
  fitTo 0 64 (leBytes 8 j.nextStep ++ leBytes 8 (j.u % 2 ^ 48 + 2 ^ 48 * b2n j.selector) ++ leBytes 8 (satNat 26 j.skipped)
    ++ leBytes 8 j.beats ++ leBytes 1 (b2n j.applyNan))

/-- A job positioned and set by a job record (R388). -/
def Job.restored_ (j : Job) (bs : List Byte) : Job :=
  let w := leAt bs 8 8
  { j with nextStep := leAt bs 0 8 % 2 ^ 48, u := w % 2 ^ 48, selector := bitOf w 48, skipped := leAt bs 0x10 8 % 2 ^ 26,
           beats := leAt bs 0x18 8, applyNan := bitOf (leAt bs 0x20 1) 0 }

/-- Controllers that home buckets of a job (R248). -/
def State.homesOf (s : State) (jid : Nat) : List Nat :=
  (List.range 20).filter (fun c => (SMap.find (s.ctl c).own jid).isSome)

/-- A job's carry-queue entries at a controller, each with header, payload and arrival stamp (R372). -/
def queueBytes (s : State) (jid c : Nat) : List Byte :=
  ((s.ctl c).carry.filter (fun p => p.job == jid)).flatMap (fun p =>
    p.header (if p.payload = 3 then 0 else (p.vals.map (fun v => v.1)).headD 0) ++ p.payloadBytes ++ leBytes 8 p.arrived)

/-- The carry-queue entries from their bytes. -/
def queueFrom : Nat → List Byte → List Packet
  | 0, _ => []
  | fuel + 1, bs =>
    if bs.length < 40 then []
    else
      let n := 32 * packetUnits (bitsOf (leAt bs 0 32) 227 226)
      { packetFrom bs with arrived := leAt bs n 8 } :: queueFrom fuel (bs.drop (n + 8))

/-- The capture at the first cycle of a capture step (R371, R372). The job record is item 0 of part 7 and the carry queue
of controller c its item c + 1 (log 47). -/
def captureOf (s : State) (jid : Nat) (j : Job) (number : Nat) (checkpoint : Bool) : Capture :=
  let own := sortBy (fun (a b : ManItem) => decide (a.item ≤ b.item)) ((manItems (s.manifest j)).filter (fun m => m.kind != 4))
  { number := number, checkpoint := checkpoint, step := j.nextStep, stamp := s.now, body := j.body,
    items := own.map (fun m => { part := m.die, item := m.item, kind := m.kind, bytes := itemBytes s j m })
      ++ { part := 7, item := 0, kind := 8, bytes := j.record }
      :: (s.homesOf jid).map (fun c => { part := 7, item := c + 1, kind := 9, bytes := queueBytes s jid c }) }

/-! ### Control words and requests (R373, R374) -/

/-- A control word (R374). -/
def controlWord (step number : Nat) (capture checkpoint : Bool) : List Byte :=
  fitTo 0 32 (leBytes 8 step ++ leBytes 4 number ++ leBytes 1 (b2n capture + 2 * b2n checkpoint))

/-- Firmware writes the control word of a step: the first update step after a request carries its capture flag, again where that step's
word is written again (R374), and the checkpoint flag only where there is a drive (R379). -/
def writeControl (s : State) (jid step : Nat) (update : Bool) : State :=
  s.updJob jid (fun j =>
    match j.capAsk with
    | some a =>
      if update && (a.step.isNone || a.step == some step) then
        { j with control := SMap.set j.control step (controlWord step a.number true (a.checkpoint && s.drive.present)),
                 capAsk := some { a with step := some step } }
      else { j with control := SMap.set j.control step (controlWord step 0 false false),
                    capAsk := some { a with step := if a.step == some step then none else a.step } }
    | none => { j with control := SMap.set j.control step (controlWord step 0 false false) })

/-- The bytes of the message that carries a request for a snapshot to the lead (R373, log 10). -/
def requestBytes (jid : Nat) (checkpoint : Bool) : List Byte := leBytes 8 (Config.requestMessage jid checkpoint).toNat

/-- A request for a snapshot (R373): it joins one that is pending; off the lead it is carried to the lowest-numbered module that this
one knows of, as a message (log 33). -/
def askCapture (s : State) (jid : Nat) (checkpoint : Bool) : State :=
  match s.job jid with
  | none => s
  | some j =>
    if !s.hasManifest j then s
    else if s.leads j then
      s.updJob jid (fun x => match x.capAsk with
        | some a => { x with capAsk := some { a with checkpoint := a.checkpoint || (checkpoint && a.step.isNone) } }
        | none => { x with capAsk := some { number := x.snapNumber + 1, checkpoint := checkpoint },
                           snapNumber := x.snapNumber + 1 })
    else
      let partners := (lathLinks (s.jobSection j 4)).filterMap (fun l => ((s.link l.1).hello).bind (fun h =>
        if h.numbered then some h.number else none))
      match partners ++ s.peers j with
      | [] => s
      | m :: ms => sendBest s (ms.foldl min m) 0 (requestBytes jid checkpoint)

/-- The requests that messages have brought to a job's lead (R373). -/
def takeRequests (s : State) : State :=
  s.jobs.foldl (fun (st : State) e => [false, true].foldl (fun (x : State) checkpoint =>
    let asks (f : Flit) : Bool := f.payload.take 8 == requestBytes e.1 checkpoint
    if x.leads e.2 && x.inbox.any asks then
      askCapture { x with inbox := x.inbox.filter (fun f => !asks f) } e.1 (checkpoint && x.drive.present)
    else x) st) s

/-- The places of a snapshot given up, its capture asked for again (R378). -/
def discardCapture (s : State) (jid : Nat) : State := s.updJob jid Job.dropCapture

/-! ### Places (R375 to R377) -/

/-- The offset of each item's data in a place: after the directory, on 4,096-byte boundaries (R376). -/
def itemOffsets (at_ : Nat) : List SnapItem → List (Nat × SnapItem)
  | [] => []
  | i :: rest =>
    let a := roundUp at_ 4096
    (a, i) :: itemOffsets (a + i.bytes.length) rest

/-- A directory entry (R376). -/
def dirEntry (e : Nat × SnapItem) : List Byte :=
  leBytes 4 e.2.item ++ leBytes 1 e.2.kind ++ List.replicate 3 0 ++ leBytes 8 e.1 ++ leBytes 8 e.2.bytes.length
    ++ List.replicate 8 0 ++ sha256 e.2.bytes

/-- The plain bytes of a place, in whole data units (R376). -/
def placePlain (s : State) (j : Job) (jid : Nat) (c : Capture) (part : Nat) : List Byte :=
  let items := c.items.filter (fun i => i.part == part)
  let laid := itemOffsets (4096 + 64 * items.length) items
  let dir := laid.flatMap dirEntry
  let body := laid.foldl (fun (bs : List Byte) e => fitTo 0 (e.1 - 4096) bs ++ e.2.bytes) dir
  let dig := match s.jobImage j with | some i => i.digest | none => []
  let head := leBytes 4 0x4D584753 ++ leBytes 4 c.number ++ leBytes 2 jid ++ leBytes 2 s.moduleNumber ++ leBytes 1 part
    ++ leBytes 1 c.body ++ leBytes 2 0 ++ leBytes 8 c.step ++ leBytes 8 c.stamp ++ fitTo 0 32 dig ++ leBytes 4 items.length
    ++ leBytes 4 0 ++ leBytes 8 body.length ++ sha256 dir
  fitTo 0 4096 (head ++ sha256 head) ++ fitTo 0 (roundUp body.length 4096) body

/-- A place encrypted or decrypted under its source partition's key pair (R377). -/
def placeCrypt (enc : Bool) (keys : List Byte) (number part module : Nat) (bs : List Byte) : List Byte :=
  (List.range (bs.length / 16)).flatMap (fun i =>
    let tweak := i / 256 + number * 2 ^ 64 + part * 2 ^ 96 + module * 2 ^ 99
    let blk := slice bs (16 * i) 16
    if enc then xtsEncryptBlock keys tweak (i % 256) blk else xtsDecryptBlock keys tweak (i % 256) blk)

/-- The two dies after one that are in service, in cyclic order (R375). -/
def nextDies (s : State) (die : Nat) : List Nat :=
  (((List.range 4).map (fun i => (die + 1 + i) % 5)).filter s.dieUp).take 2

/-- The holders of a part: dies of this module for Holders 0, the buddy modules for Holders 1 (R375). -/
def holdersOf (s : State) (j : Job) (part : Nat) : List Place :=
  if leAt (s.manifest j) 4 1 = 0 then
    let die := if part = 7 then ((List.range 5).find? s.dieUp).getD 0 else part
    (nextDies s die).map (fun d => { part := part, holder := d, remote := false })
  else j.buddies.map (fun b => { part := part, holder := b, remote := true })

/-- The parts of a manifest: the dies that hold items of kinds 0 to 3, and part 7 (R375). -/
def partsOf (man : List Byte) : List Nat :=
  (List.range 5).filter (fun d => (manItems man).any (fun m => m.die == d && m.kind != 4)) ++ [7]

/-- The window offset of a part's place in a holder's reserve: held parts in order of part code, place A before place B
(R375, log 48). -/
def reserveAt (s : State) (j : Job) (die part number : Nat) : Nat :=
  let man := s.manifest j
  let held := (partsOf man).filter (fun p => (holdersOf s j p).any (fun h => !h.remote && h.holder == die))
  32 * leAt man 0x10 8 + (2 * held.idxOf part + (number + 1) % 2) * leAt man 0x18 8

/-- The places that a snapshot's parts take (R375), each with where it stands. -/
def placesOf (s : State) (j : Job) (number : Nat) : List Place :=
  (partsOf (s.manifest j)).flatMap (fun p => (holdersOf s j p).map (fun h =>
    if h.remote then h else { h with off := reserveAt s j h.holder p number, len := leAt (s.manifest j) 0x18 8 }))

/-- Bytes put in a die's tier 2 as they are, ciphertext already (R377). -/
def State.putCipher (s : State) (die a : Nat) (bs : List Byte) : State :=
  { s with tier2 := SMap.upd [] s.tier2 die (fun m => Mem.write m a bs) }

/-- A part of a capture as its holders take it (R377). -/
def partCipher (s : State) (jid : Nat) (j : Job) (c : Capture) (part : Nat) : List Byte :=
  placeCrypt true (s.part j.part).keys c.number part s.moduleNumber (placePlain s j jid c part)

/-- The catalogue entry of a capture (R377). -/
def entryOf (s : State) (jid : Nat) (j : Job) (c : Capture) : CatEntry :=
  { part := j.part, job := jid, number := c.number, step := c.step, places := placesOf s j c.number, module := s.moduleNumber }

/-- Every part of a capture sealed on its holders, sent to those that are buddies (R375, log 29), and the snapshot entered in the catalogue
(R377): it replaces the entry whose places it took. -/
def sealSnapshot (s : State) (jid : Nat) (j : Job) (c : Capture) : State :=
  let e := entryOf s jid j c
  let s1 := e.places.foldl (fun (st : State) h =>
    let bs := partCipher s jid j c h.part
    if h.remote then
      { st with sentParts := st.sentParts ++ [{ module := h.holder, job := jid, number := c.number, part := h.part, bytes := bs }] }
    else
      match (s.part j.part).windowAddr h.holder true h.off bs.length with
      | some a => st.putCipher h.holder a bs
      | none => st) { s with sentParts := s.sentParts.filter (fun x => x.job != jid) }
  let keep (x : CatEntry) : Bool :=
    !(x.part == j.part && x.job == jid && !x.checkpoint && x.number % 2 == c.number % 2)
  { s1 with catalogue := s1.catalogue.filter keep ++ [e] }

/-- A partner's part lands in the reserve of a holder that runs its job (R375), under Holders 1: on the die of its source's number, part 7
as for die 0, or on the lowest-numbered die in service. Places stand in order of source and part (logs 29, 48). -/
def landPart (s : State) (all : List SnapPart) (x : SnapPart) : State :=
  match s.job x.job with
  | none => s
  | some j =>
    let man := s.manifest j
    let dieFor (y : SnapPart) : Nat :=
      let d := if y.part = 7 then 0 else y.part
      if s.dieUp d then d else ((List.range 5).find? s.dieUp).getD 0
    if leAt man 4 1 ≠ 1 ∨ x.module = s.moduleNumber then s
    else
      let order := sortBy (fun (a b : Nat) => decide (a ≤ b))
        (((all.filter (fun y => y.job == x.job && dieFor y == dieFor x)).map (fun y => 8 * y.module + y.part)).eraseDups)
      let off := 32 * leAt man 0x10 8 + (2 * order.idxOf (8 * x.module + x.part) + (x.number + 1) % 2) * leAt man 0x18 8
      match (s.part j.part).windowAddr (dieFor x) true off x.bytes.length with
      | some a => s.putCipher (dieFor x) a x.bytes
      | none => s

/-! ### Reading places (R389, R390) -/

/-- What a place holds: its items with their kinds and their bytes, none where an item's digest fails; none at all where the
seal or the directory digest fails (R390). -/
def placeItems (plain : List Byte) : Option (List (Nat × Nat × Option (List Byte))) :=
  let n := leAt plain 0x40 4
  let dir := slice plain 4096 (64 * n)
  if slice plain 0x70 32 = sha256 (plain.take 0x70) ∧ slice plain 0x50 32 = sha256 dir ∧ leAt plain 0 4 = 0x4D584753 then
    some ((List.range n).map (fun i =>
      let e := slice dir (64 * i) 64
      let bs := slice plain (leAt e 8 8) (leAt e 16 8)
      (leAt e 0 4, leAt e 4 1, if sha256 bs = slice e 32 32 then some bs else none)))
  else none

/-- The copies of a checkpoint on the drive (R379), where it is there (R6). -/
def State.driveCopies (s : State) (e : CatEntry) : List Checkpoint :=
  if e.checkpoint && s.drive.present then
    s.drive.checkpoints.filter (fun c => c.part == e.part && c.job == e.job && c.number == e.number && c.module == e.module && c.complete)
  else []

/-- A part's bytes on the drive. -/
def State.drivePart (s : State) (e : CatEntry) (part : Nat) : List (List Byte) :=
  (s.driveCopies e).filterMap (fun c => (c.places.find? (fun x => x.1 == part)).map (fun x => x.2))

/-- The places that hold a snapshot: its own, and for a checkpoint those of its snapshot while the catalogue has it. -/
def State.heldPlaces (s : State) (e : CatEntry) : List Place :=
  if e.checkpoint then
    ((s.catalogue.find? (fun x => x.part == e.part && x.job == e.job && x.number == e.number && x.module == e.module && !x.checkpoint
      && !e.shipped)).map (fun x => x.places)).getD []
  else e.places

/-- The ciphertext of one place that can be read: from the tier 2 of a holder in service, where it was written, or from a buddy as the
command gives it. -/
def placeCipher (s : State) (e : CatEntry) (remote : List (Nat × List Byte)) (h : Place) : Option (List Byte) :=
  if h.lost then none
  else if h.remote then (remote.find? (fun r => r.1 == h.part)).map (fun r => r.2)
  else if s.dieUp h.holder then
    ((s.part e.part).windowAddr h.holder true h.off h.len).map (fun a => Mem.read (SMap.getD [] s.tier2 h.holder) a h.len)
  else none

/-- The ciphertexts of a part that can be read, in the order of R389: its holders, then the checkpoint if it is named and the
drive is there (R6). -/
def partCiphers (s : State) (e : CatEntry) (remote : List (Nat × List Byte)) (part : Nat) : List (List Byte) :=
  ((s.heldPlaces e).filter (fun h => h.part == part)).filterMap (placeCipher s e remote) ++ s.drivePart e part

/-- What a part's ciphertext holds for a partition (R377, R390). -/
def State.opened (s : State) (pid : Nat) (e : CatEntry) (part : Nat) (ct : List Byte) : Option (List (Nat × Nat × Option (List Byte))) :=
  placeItems (placeCrypt false (s.part pid).keys e.number part e.module ct)

/-- A partition can read a snapshot's places (R390): the snapshot's partition has the same key pair; of a checkpoint that came with a drive
from another module, some place opens. -/
def State.reads (s : State) (pid : Nat) (e : CatEntry) : Bool :=
  if e.shipped then e.places.any (fun h => (s.drivePart e h.part).any (fun ct => (s.opened pid e h.part ct).isSome))
  else !(s.part pid).keys.isEmpty && (s.part e.part).keys == (s.part pid).keys

/-- The items of a part, each from the first source that holds it with a matching digest (R389). A place whose seal or directory digest
fails is no source (R390, log 105). -/
def partItems (s : State) (j : Job) (e : CatEntry) (remote : List (Nat × List Byte)) (part : Nat) :
    List (Nat × Nat × Option (List Byte)) :=
  let all := (partCiphers s e remote part).filterMap (s.opened j.part e part)
  (all.headD []).map (fun i =>
    ((all.flatten).find? (fun x => x.1 == i.1 && x.2.1 == i.2.1 && x.2.2.isSome)).getD i)

/-- The catalogue entry of a job's snapshot or checkpoint for a partition: its own, else one that it can read (R390). -/
def State.catEntry (s : State) (part job number : Nat) (checkpoint : Bool) : Option CatEntry :=
  let named (e : CatEntry) : Bool := e.job == job && e.number == number && e.checkpoint == checkpoint
  match s.catalogue.find? (fun e => named e && e.part == part && !e.shipped) with
  | some e => some e
  | none => s.catalogue.find? (fun e => named e && s.reads part e)

/-- The bytes of a frozen item and the digest recorded for it: where the running body places it, or a frozen copy of the job that took the
snapshot (R389). Where no copy records a digest there is none to match, and no source (log 38). -/
def frozenItem (s : State) (j : Job) (e : CatEntry) (m : ManItem) : Option (List Byte) :=
  let copies := if s.drive.present then
      (s.drive.frozen.filter (fun f => f.part == e.part && f.job == e.job && f.module == e.module)).flatMap (fun f =>
        f.items.filter (fun x => x.1 == m.item))
    else []
  let here := itemBytes s j m
  if s.dieUp m.die && copies.any (fun x => x.2.1 == sha256 here) then some here
  else (copies.find? (fun x => sha256 x.2.2 == x.2.1)).map (fun x => x.2.2)

/-- The controller whose carry queue takes a restored packet: the home of its bucket in the running body, which in an alternate body may
be another than the one that held it (R386, R388). -/
def carryHome (s : State) (j : Job) (was : Nat) (p : Packet) : Nat :=
  match (bucketEntries (s.jobSection j 5)).find? (fun b => b.bucket == p.bucket && b.homed) with
  | some b => 4 * b.die + b.ctl
  | none => was

/-- A restore's writes, or the first item that fails (R388 to R390). -/
def restoreItems (s : State) (jid : Nat) (j : Job) (e : CatEntry) (remote : List (Nat × List Byte)) : Option Nat × State :=
  let parts := (e.places.map (fun h => h.part)).eraseDups
  let found := parts.flatMap (partItems s j e remote)
  let want := sortBy (fun (a b : ManItem) => decide (a.item ≤ b.item)) (manItems (s.manifest j))
  let src (m : ManItem) : Option (List Byte) :=
    if m.kind = 4 then frozenItem s j e m
    else (found.find? (fun i => i.1 == m.item && i.2.1 < 8)).bind (fun i => i.2.2)
  match want.find? (fun m => (src m).isNone) with
  | some m => (some m.item, s)
  | none =>
    match (found.find? (fun i => i.2.1 == 8)).bind (fun i => i.2.2) with
    | none => (some 0, s)
    | some rec =>
      match found.find? (fun i => i.2.1 == 9 && i.2.2.isNone) with
      | some q => (some q.1, s)
      | none =>
        let j0 := j.restored_ rec
        let fresh := !j.resident && !j.everResident && j.dust.isSome
        let j1 : Job := { j0 with everResident := j.everResident || fresh }
        let s1 := (if fresh then clearDust s j else s).setJob jid j1
        let s2 := want.foldl (fun (st : State) m => if m.kind = 4 ∧ s.dieUp m.die ∧ src m = some (itemBytes s j m) then st
          else writeItem st j1 m ((src m).getD [])) s1
        let s3 := (List.range 20).foldl (fun (st : State) c => st.updCtl c (fun x => { x with
          carry := x.carry.filter (fun p => p.job != jid) })) s2
        let packets := (found.filter (fun i => i.2.1 == 9)).flatMap (fun i => (queueFrom 65 (i.2.2.getD [])).map (fun p => (i.1 - 1, p)))
        (none, packets.foldl (fun (st : State) p => st.updCtl (carryHome s j1 p.1 p.2) (fun c => { c with
          carry := c.carry ++ [{ p.2 with job := jid }] })) s3)

/-- The ciphertexts of a part that SNAP_VERIFY checks (R390): the snapshot's places, or the checkpoint's copy on the drive. -/
def verifyCiphers (s : State) (e : CatEntry) (remote : List (Nat × List Byte)) (part : Nat) : List (List Byte) :=
  if e.checkpoint then s.drivePart e part else partCiphers s e remote part

/-- The checks of SNAP_VERIFY over every place of a snapshot (R390): the first failing item. -/
def verifyPlaces (s : State) (j : Job) (e : CatEntry) (remote : List (Nat × List Byte)) : Option Nat :=
  let parts := (e.places.map (fun h => h.part)).eraseDups
  let cts := parts.flatMap (fun p => (verifyCiphers s e remote p).map (s.opened j.part e p))
  let bad := cts.flatMap (fun r => match r with
    | some is => (is.filter (fun i => i.2.2.isNone)).map (fun i => i.1)
    | none => [0])
  let missing := parts.any (fun p => (verifyCiphers s e remote p).isEmpty)
  if missing && bad.isEmpty then some 0 else firstMin (fun a b => decide (a ≤ b)) bad

end Sys2Proof.Machine
end

