-- ==== Sys2Proof/Machine/Jobs.lean ====
section
/-!
DEFINITION. Sys2Proof/Machine/Jobs.lean: contexts: binding, dust sheets, overlays and scrubbing (R319, R321, R327, R328),
the withdrawal of a job (R334, R335), and what partition commands do once their jobs are fenced (R335).
-/
namespace Sys2Proof.Machine

/-! ### Tiles and bindings -/

/-- Jobs of a partition. -/
def State.jobsOf (s : State) (pid : Nat) : List (Nat × Job) := s.jobs.filter (fun e => e.2.part == pid)

/-- A tile scrubbed (R321). -/
def State.scrub (s : State) (tile : Nat) : State := s.setTile tile {}

/-! ### Dust sheets (R327) and overlays (R328) -/

/-- The conduit ranges of an image tile: first byte and bytes (R185). -/
def conduits (bs : List Byte) (img : Nat) : List (Nat × Nat) :=
  ((recordsAt bs 16 16 (leAt bs 0 4)).filter (fun w => bitsOf w 127 122 == img)).map (fun w =>
    (32 * bitsOf w 115 96, 32 * bitsOf w 95 76))

/-- An accumulator store as a dust sheet holds it (R327). -/
def accumBytes (a : ArrayState) : List Byte :=
  (List.range 256).flatMap (fun r => (fitTo 0 512 (a.row r)).flatMap (fun v => leBytes 8 (BitVec.ofInt 64 v).toNat))

/-- An accumulator store from its bytes in a dust sheet. -/
def accumFrom (bs : List Byte) : SMap (List Int) :=
  ((List.range 256).map (fun r => (r, (List.range 480).map (fun c => sextNat 64 (leAt bs (4096 * r + 8 * c) 8))))).filter
    (fun e => e.2.any (fun v => v != 0))

/-- One tile's state saved to its share of the dust sheet, its conduit ranges as zeros (R185, R327). -/
def saveTile (s : State) (j : Job) (img tile : Nat) : State :=
  match dustAt s j img with
  | none => s
  | some (die, a) =>
    let t := s.tile tile
    let clean := (conduits (s.jobConstant j 6) img).foldl (fun (m : Mem) c => Mem.zero m c.1 c.2) t.scratch
    { s with tier1 := SMap.upd [] s.tier1 die (fun m =>
        Mem.write (Mem.splice m a scratchEnd (Mem.window clean 0 scratchEnd a)) (a + scratchEnd)
          (accumBytes t.hawk ++ accumBytes t.float)) }

/-- One tile's state restored from its share of the dust sheet, its conduit ranges as zeros (R185, R327). -/
def loadTile (s : State) (j : Job) (jid img tile : Nat) : State :=
  match dustAt s j img with
  | none => s
  | some (die, a) =>
    let m := SMap.getD [] s.tier1 die
    let clean := (conduits (s.jobConstant j 6) img).foldl (fun (x : Mem) c => Mem.zero x c.1 c.2) (Mem.window m a scratchEnd 0)
    s.setTile tile { job := some jid, scratch := clean,
                     hawk := { rows := accumFrom (Mem.read m (a + scratchEnd) (2 ^ 20)) },
                     float := { rows := accumFrom (Mem.read m (a + scratchEnd + 2 ^ 20) (2 ^ 20)) } }

/-- A context's tiles of one die saved. -/
def saveDie (s : State) (j : Job) (die : Nat) : State :=
  (j.binding.filter (fun b => b.1 / 12 == die)).foldl (fun (st : State) b => saveTile st j b.1 b.2) s

/-- An overlay's bytes on a die moved between its tier-1 range and its backing: filled, or written back (R328). -/
def moveOverlay (s : State) (j : Job) (jid die : Nat) (fill : Bool) : State :=
  match j.overlay with
  | none => s
  | some o =>
    let p := s.part j.part
    match p.windowAddr die false o.tier1 o.len, p.windowAddr die true o.tier2 o.len with
    | some a1, some a2 =>
      if fill then
        let s1 := s.writeDie die false [] a1 (s.readDie die true p.keys a2 o.len)
        { s1 with fills := s1.fills.filter (fun f => !(f.1 == die && decide (f.2.1 < a1 + o.len) && decide (a1 < f.2.1 + f.2.2.1)))
                    ++ [(die, a1, o.len, jid)] }
      else if o.writable then s.writeDie die true p.keys a2 (s.readDie die false [] a1 o.len)
      else s
    | _, _ => s

/-- A context's overlay must be filled on a die at swap-in (R328). -/
def needsFill (s : State) (j : Job) (jid die : Nat) : Bool :=
  match j.overlay with
  | none => false
  | some o =>
    match (s.part j.part).windowAddr die false o.tier1 o.len with
    | some a1 => decide (0 < o.len) && !s.fills.contains (die, a1, o.len, jid)
    | none => false

/-- Two contexts' overlays overlap on some die (R328). -/
def overlaysMeet (a b : Job) : Bool :=
  match a.overlay, b.overlay with
  | some x, some y => a.part == b.part && decide (x.tier1 < y.tier1 + y.len) && decide (y.tier1 < x.tier1 + x.len)
  | _, _ => false

/-- A context swapped out at once: saved, written back, scrubbed (R332). -/
def swapOut (s : State) (jid : Nat) : State :=
  match s.job jid with
  | none => s
  | some j =>
    let s1 := (List.range 5).foldl (fun (st : State) die => moveOverlay (saveDie st j die) j jid die false) s
    let s2 := j.binding.foldl (fun (st : State) b => st.scrub b.2) s1
    s2.updJob jid (fun x => { x with resident := false, nextAt := none, leaving := none, blockedSince := none, waitingSince := none })

/-- A context's tiles bound and given to it, its next step due at a stamp (R319). -/
def seat (s : State) (jid : Nat) (binding : SMap Nat) (due : Option Nat) : State :=
  let s1 := s.updJob jid (fun x => { x with binding := binding, resident := true, everResident := true, placedAt := s.now,
                                            waitingSince := none, blockedSince := none, nextAt := due })
  binding.foldl (fun (st : State) b => st.updTile b.2 (fun t => { t with job := some jid })) s1

/-- A pinned context (R329). -/
def State.pinned (s : State) (j : Job) : Bool :=
  j.pin || j.dust.isNone || (match s.jobImage j with | some i => bitOf (i.field 8 4) 3 | none => false)

/-- An outgoing context's tiles of a die left from a phase of a switch on (R332): Save 0, Write-back 1, Scrub 2. -/
def leaveDie (s : State) (jid die k : Nat) : State :=
  match s.job jid with
  | none => s
  | some j =>
    let s1 := if k = 0 then saveDie s j die else s
    let s2 := if k ≤ 1 then moveOverlay s1 j jid die false else s1
    if k ≤ 2 then (j.binding.filter (fun b => b.1 / 12 == die)).foldl (fun (st : State) b => st.scrub b.2) s2 else s2

/-- The tiles that a switch has brought an incoming context's state to, on the dies that have run their last phase, scrubbed (R321). -/
def unbind (s : State) (w : Switch) : State :=
  (w.binding.filter (fun b => w.begun && SMap.getD 5 w.now_ (b.1 / 12) == 5)).foldl (fun (st : State) b => st.scrub b.2) s

/-- A switch given up: contexts that it has begun to swap out are swapped out, those that it has not stay and go on (log 79). -/
def dropSwitch (s0 : State) (w : Switch) : State :=
  let s := unbind s0 w
  w.outgoing.foldl (fun (st : State) o =>
    if w.begun then
      ((List.range 5).foldl (fun (x : State) die => leaveDie x o die (SMap.getD 5 w.now_ die)) st).updJob o (fun x =>
        { x with resident := false, nextAt := none, leaving := none, blockedSince := none, waitingSince := none })
    else st.updJob o (fun x => { x with
      leaving := none
      nextAt := if x.leaving.isSome && x.run.isNone && x.nextAt.isNone && x.restUntil.isNone && x.mode == .running && x.resident
          && x.ready && (x.serve.isNone || x.replayRun.isSome || !st.leads x) then some ((st.now + 65535) / 65536 * 65536)
        else x.nextAt }))
    { s with switches := s.switches.filter (fun x => x.incoming != w.incoming) }

/-! ### Withdrawal (R334, R335) -/

/-- The prefix index of a serving job as its partition keeps it (R275, R285, log 103): pages that the job's sequences used become
cached where they are registered. -/
def keptPrefix (s : State) (j : Job) (v : Serve) : PrefixIndex :=
  let w := v.refs.foldl (fun (x : Serve) e => { x with
    refs := SMap.erase x.refs e.1
    cached := if x.index.any (fun i => i.2 == e.1) then x.cached ++ [e.1] else x.cached }) v
  { digest := match s.jobImage j with | some i => i.digest | none => [], body := j.body, index := w.index, cached := w.cached }

/-- Another job of a job's pool (R285). -/
def State.poolMate (s : State) (jid : Nat) (j : Job) : Option Serve :=
  ((s.jobs.find? (fun e => e.1 != jid && e.2.serve.isSome && s.onePool j e.2)).bind (fun e => e.2.serve))

/-- The prefix index of a job that leaves goes to its partition (R285); where another job of the pool stays, the index stays with it,
without the references of the job that leaves. -/
def leavePrefix (s : State) (jid : Nat) (j : Job) : State :=
  match j.serve with
  | some v =>
    if (s.poolMate jid j).isSome then s.updPool jid (fun w => w.dropPages ((s.entries jid).flatMap (fun e => e.2.pages)))
    else if v.index.isEmpty then s
    else s.updPart j.part (fun p => { p with prefixes := p.prefixes ++ [keptPrefix s j v] })
  | none => s

/-- A serving job takes up the pool of a job that shares it, or else the prefix index that its partition keeps for its image and body
(R285). -/
def takePrefix (s : State) (jid : Nat) : State :=
  match s.job jid with
  | none => s
  | some j =>
    match s.poolMate jid j with
    | some w => s.updJob jid (fun x => { x with serve := x.serve.map (fun v => v.withPool w) })
    | none =>
    let dig := match s.jobImage j with | some i => i.digest | none => []
    match (s.part j.part).prefixes.find? (fun x => x.digest == dig && x.body == j.body) with
    | some x => if j.serve.isSome then
        (s.updPart j.part (fun p => { p with prefixes := p.prefixes.filter (fun y => y != x) })).updServe jid (fun v => { v with
          index := x.index, cached := x.cached })
      else s
    | none => s

/-- What JOB_STOP's work takes from the module (R335). -/
def releaseJob (s0 : State) (jid : Nat) : State :=
  match s0.job jid with
  | none => s0
  | some j =>
    let s := (s0.switches.filter (fun w => w.incoming == jid)).foldl dropSwitch s0
    -- tiles that a switch has taken over are another context's (R332, R335)
    let own (b : Nat × Nat) : Bool := s.switches.all (fun w =>
      !(w.begun && w.outgoing.contains jid) || decide (SMap.getD 5 w.now_ (b.1 / 12) ≤ 2))
    let s1 := if j.resident then (j.binding.filter own).foldl (fun (st : State) b => st.scrub b.2) s else s
    let s2 := (s1.homesOf jid).foldl (fun (st : State) c => st.updCtl c (fun x =>
      { x with own := SMap.erase x.own jid, carry := x.carry.filter (fun p => p.job != jid) })) (leavePrefix s1 jid j)
    { s2 with jobs := SMap.erase s2.jobs jid,
              kept := s2.kept ++ j.records.map (fun r => (j.part, jid, r)),
              requests := s2.requests.filter (fun e => e.2.job != jid),
              inflight := s2.inflight.filter (fun (o : Op) => o.job != jid || o.stores),
              fills := s2.fills.filter (fun f => f.2.2.2 != jid),
              switches := s2.switches.map (fun w => { w with outgoing := w.outgoing.filter (fun o => o != jid) }),
              power := { s2.power with resting := s2.power.resting.filter (fun x => x != jid) } }

/-- Ranges of GiB of a window that another window does not cover. -/
def removedGib (old new : Window) : List Nat :=
  ((List.range old.len).map (fun i => old.base + i)).filter (fun g => !(decide (new.base ≤ g) && decide (g < new.base + new.len)))

/-- Released tier-1 memory put on the list of what is to be zeroed (R174). -/
def State.releaseTier1 (s : State) (old new : SMap Window) : State :=
  { s with clearing := s.clearing ++ (List.range 5).flatMap (fun die =>
      (removedGib (SMap.getD {} old (2 * die)) (SMap.getD {} new (2 * die))).map (fun g => (die, g, 1))) }

/-- A window that closes: its reply window and its registers stay (R402, R408). -/
def Win.closed (w : Win) : Win := { w with isOpen := false, area := Mem.window w.area 0x1000 0x1000 0x1000 }

/-- Where a partition's staging aperture begins in hub memory (R402, R430). -/
def stagingAt (p : Nat) : Nat := (16 + 4 * p) * gib
/-- Where a partition's result region begins in hub memory (R402, R430). -/
def resultAt (p : Nat) : Nat := (64 + 4 * p) * gib

/-- What PART_DESTROY takes from the module once its contexts are gone (R335, R430): the record returns to FREE. Commands of its window
that have yet to be answered keep their final replies (R414). -/
def destroyPart (s : State) (pid : Nat) : State :=
  let p := s.part pid
  let s1 := ((List.range 60).filter (bitOf p.tiles)).foldl (fun (st : State) t => st.scrub t) s
  let s2 := s1.releaseTier1 p.windows []
  { s2 with parts := SMap.erase s2.parts pid,
            images := s2.images.filter (fun i => i.part != pid),
            budgets := s2.budgets.filter (fun b => b.2.part != pid),
            hub := Mem.zero (Mem.zero s2.hub (stagingAt pid) (4 * gib)) (resultAt pid) (4 * gib),
            wins := match SMap.find s2.wins (pid + 1) with
              | some w => SMap.set s2.wins (pid + 1) w.closed
              | none => s2.wins }

/-- The fields that a partition block gives a partition (R420): the others kept. -/
def Part.withBlock (p : Part) (b : List Byte) : Part :=
  { p with
    pooled := leAt b 1 1 == 2
    sliceLen := leAt b 4 2
    whole := none
    tiles := leAt b 8 8 % 2 ^ 60
    windows := ((List.range 10).filter (fun i => bitOf (leAt b (0x10 + 8 * i) 8) 63)).map (fun i =>
      let w := leAt b (0x10 + 8 * i) 8
      (i, { base := bitsOf w 8 0, len := bitsOf w 24 16 }))
    grant1 := bitsOf (leAt b 0xB0 32) 255 192
    grant2 := bitsOf (leAt b 0xB0 32) 191 128
    grantDie := bitsOf (leAt b 0xB0 32) 127 64
    grantLath := bitsOf (leAt b 0xB0 32) 63 0 }

/-- A body's footprints: bytes of tier 1 or tier 2 on a die (R58). -/
def Image.footprint (i : Image) (body die : Nat) (tier2 : Bool) : Nat :=
  let off := 40 * b2n tier2 + 8 * die
  if body = 0 then leAt i.header (0x30 + off) 8 else leAt ((i.section_ body 9).getD []) off 8

/-- Student parameters that a body places on this module (R58). -/
def Image.studentParams (i : Image) (body : Nat) : Nat :=
  if body = 0 then leAt i.header 0x80 8 else leAt ((i.section_ body 9).getD []) 0x50 8

/-- A body's footprints lie in a partition's windows (R174). -/
def fitsWindows (p : Part) (i : Image) (body : Nat) : Bool :=
  (List.range 5).all (fun die =>
    decide (i.footprint body die false ≤ (p.window die false).len * gib) &&
    decide (i.footprint body die true ≤ (p.window die true).len * gib))

/-- The first frame boundary at or after a stamp. -/
def frameUp (t : Nat) : Nat := (t + 65535) / 65536 * 65536

/-- A change of slice takes something away from every context: it shrinks a window or clears grant bits (R334). -/
def shrinks (old new : Part) : Bool :=
  old.windows.any (fun w => !(removedGib w.2 (SMap.getD {} new.windows w.1)).isEmpty)
    || old.grant1 &&& new.grant1 != old.grant1 || old.grant2 &&& new.grant2 != old.grant2
    || old.grantDie &&& new.grantDie != old.grantDie || old.grantLath &&& new.grantLath != old.grantLath

/-- A context that a change of slice withdraws (R334): on a tile that is removed, or holding what every context loses. -/
def sliceHits (old new : Part) (j : Job) : Bool :=
  shrinks old new || (j.resident && j.binding.any (fun b => bitOf old.tiles b.2 && !bitOf new.tiles b.2))

/-- The partition that a partition command names (R419, R420). -/
def Cmd.partition (c : Cmd) : Nat := if c.block.isEmpty then leAt c.call.params 0 1 else leAt c.block 0 1

/-- What the PART_SET_SLICE commands at work will give their partitions. Tiles, windows and grants that they add are theirs for
every check from the command on, and no context is placed on tiles that they remove (R318, R319, R322). -/
def pendingSlices (s : State) : List (Nat × Part) :=
  (s.cmds.filter (fun c => c.started && c.waiting && c.opcode == 0x0104)).map (fun c =>
    (c.partition, (s.part c.partition).withBlock c.block))

/-- A tile of a partition's slice that no waiting PART_SET_SLICE removes. -/
def State.holdsTile (s : State) (pid t : Nat) : Bool :=
  bitOf (s.part pid).tiles t && (pendingSlices s).all (fun x => x.1 != pid || bitOf x.2.tiles t)

/-- A switch of a partition uses tiles that a change of slice takes away: it would bind one, or a context leaves one (R335). -/
def switchHit (s : State) (lost : Nat → Bool) (w : Switch) : Bool :=
  w.binding.any (fun b => lost b.2)
    || w.outgoing.any (fun o => match s.job o with | some j => j.binding.any (fun b => lost b.2) | none => false)

/-- PART_SET_SLICE's work after the fence (R335): its block takes effect; a switch under way that uses removed tiles is given up
(log 79); contexts on removed tiles are swapped out, or stopped where they are pinned; so are those whose footprint no longer
fits. Contexts that the command alone fenced go on. -/
def applySlice (s0 : State) (pid : Nat) (block : List Byte) : State :=
  let old := s0.part pid
  let new := old.withBlock block
  let lost (t : Nat) : Bool := bitOf old.tiles t && !bitOf new.tiles t
  let s := (s0.switches.filter (fun w => w.part == pid && switchHit s0 lost w)).foldl dropSwitch s0
  let s1 := (s.jobsOf pid).foldl (fun (st : State) e =>
    let fits := match st.jobImage e.2 with | some i => fitsWindows new i e.2.body | none => true
    let touched := e.2.resident && e.2.binding.any (fun b => lost b.2)
    if !fits || (touched && st.pinned e.2) then releaseJob st e.1
    else
      let st1 := if touched then swapOut st e.1 else st
      st1.updJob e.1 (fun x =>
        if (match x.stop with | some y => y.reached && !y.ends | none => false) && s.quiesce == .none then { x with
          stop := none
          nextAt := if x.resident && x.mode == .running && x.serve.isNone && x.ready && x.leaving.isNone then some (frameUp st.now)
            else none }
        else x)) s
  let s2 := ((List.range 60).filter lost).foldl (fun (st : State) t => st.scrub t) s1
  -- where windows lose memory, no page pool that an index names is sure to stand (log 103)
  let kept := if shrinks old new then [] else (s2.part pid).prefixes
  (s2.releaseTier1 old.windows new.windows).updPart pid (fun _ => { new with prefixes := kept })

/-- Something planned for a frame boundary, in order of time (R50). -/
def State.plan (s : State) (at_ : Nat) (a : FrameAct) : State :=
  { s with acts := insertBy (fun (x y : Nat × FrameAct) => decide (x.1 < y.1)) (at_, a) s.acts }

/-- A step runs, or begins before a frame. -/
def Job.busyBefore (j : Job) (frame : Nat) : Bool :=
  j.run.isSome || (match j.nextAt with | some t => decide (t < 65536 * frame) | none => false)

/-- The last step that two withdrawals of one job leave it: the earlier of the steps named; none where either names none
(R334). -/
def lastOf (a b : Option Nat) : Option Nat :=
  match a, b with
  | some x, some y => some (min x y)
  | _, _ => none

/-- A withdrawal begins (R334), collected at the clock's tick boundary: a context swapped out or in its rest frames (R461) is
fenced at once, its commands answered, one that runs a step is fenced at a step boundary to come, and any other at the next frame boundary; what the withdrawal does to
the data plane waits for that boundary (R49). It joins one under way, and a job that would have run on to a named step stops at the
first boundary that the later withdrawal allows. -/
def withdraw (s : State) (jid : Nat) (last : Option Nat) (ends : Bool) : State :=
  match s.job jid with
  | none => s
  | some j =>
    let frame := frameOf s.now + 1
    let stop : Stop := match j.stop with
      | some y => { y with ends := y.ends || ends, last := lastOf y.last last,
                           frame := if y.last.isSome && last.isNone then frame else y.frame }
      | none => { last := last, frame := frame, ends := ends }
    let s1 := s.updJob jid (fun x => { x with stop := some stop })
    let later := match stop.last with
      | some l => j.mode == .running && j.resident && decide (j.nextStep ≤ l)
      | none => false
    if j.busyBefore frame || later then s1
    else
      let s2 := if j.resident && j.restUntil.isNone then s1
        else (s1.answerAll jid stStale (fun op => op == 0x0304)).updJob jid (fun x => { x with
          stop := x.stop.map (fun y => { y with reached := true }) })
      s2.plan (nextFrame s.now) (.fence jid)

/-- A partition command whose contexts are all at rest does its work and completes (R335). A context that has come under a waiting
PART_SET_SLICE since its collection is withdrawn in its turn. -/
def settlePart (s : State) (c : Cmd) : State :=
  let pid := c.partition
  let done (st : State) : State := st.answer (fun x => x.id == c.id) (fun _ => st.reply stOk)
  if c.opcode = 0x0102 then (if (s.jobsOf pid).isEmpty then done (destroyPart s pid) else s)
  else
    let new := (s.part pid).withBlock c.block
    let hit := (s.jobsOf pid).filter (fun e => sliceHits (s.part pid) new e.2)
    let s1 := (hit.filter (fun e => e.2.stop.isNone)).foldl (fun (st : State) e => withdraw st e.1 none false) s
    if hit.all (fun e => match e.2.stop with | some x => x.reached && !x.ends | none => false) then done (applySlice s1 pid c.block)
    else s1

/-- The partition commands at work, one by one. -/
def settleParts (s : State) : State :=
  (s.cmds.filter (fun c => c.started && c.waiting && (c.opcode == 0x0102 || c.opcode == 0x0104))).foldl settlePart s

/-- A context is fenced (R334): its commands are answered STALE, and it is released where the withdrawal ends it. -/
def fenceJob (s : State) (jid : Nat) : State :=
  match s.job jid with
  | none => s
  | some j =>
    match j.stop with
    | none => s
    | some x =>
      let s1 := s.answerAll jid stStale (fun op => op == 0x0304)
      let s2 := (dropPlans s1 jid none).1
      let s3 := s2.updJob jid (fun y => { y with nextAt := none, restUntil := none, pauseAsk := none, stop := some { x with reached := true } })
      let s4 := if x.ends then
          let s5 := s3.answerJob 0x0304 jid (s3.reply stOk)
          releaseJob s5 jid
        else s3
      settleParts s4

/-! ### Step boundaries -/

/-- A withdrawal takes effect at a boundary (R334): it has been reached, and the step named has run. -/
def Stop.due (x : Stop) (frame next : Nat) : Bool :=
  decide (x.frame ≤ frame) && (match x.last with | some l => decide (l < next) | none => true)

/-- A job is paused: PAUSED, its JOB_PAUSE commands answered with its next step number (R419). -/
def pauseJob (s : State) (jid : Nat) : State :=
  match s.job jid with
  | none => s
  | some j =>
    let s1 := s.updJob jid (fun x => { x with mode := .paused, nextAt := none, pauseAsk := none })
    s1.answerJob 0x0302 jid { s1.reply stOk with words := [j.nextStep % 2 ^ 32, j.nextStep / 2 ^ 32] }

/-- A step boundary of a job at a stamp (R63, R332, R334, R419, R460): it is fenced, paused, about to leave its tiles,
resting, or its next step begins here. `frames` is the length of the step completed, 0 after an abandoned one. -/
def boundary (s : State) (jid at_ frames : Nat) : State :=
  match s.job jid with
  | none => s
  | some j =>
    let f := frameOf at_
    if (match j.stop with | some x => x.due f j.nextStep | none => false) then fenceJob s jid
    else if j.mode != .running then s
    else if (match j.pauseAsk with | some x => decide (x ≤ f) | none => false) then pauseJob (dropPlans s jid none).1 jid
    else if (match j.leaving with | some x => decide (x ≤ f) | none => false) then
      (dropPlans s jid none).1.updJob jid (fun x => { x with nextAt := none })
    else if j.resting && (match j.restAsk with | some x => decide (x ≤ f) | none => true) && frames != 0 then
      s.updJob jid (fun x => { x with nextAt := none, restUntil := some (at_ + 65536 * frames) })
    else
      let planned := j.serve.isNone || j.replayRun.isSome || !s.leads j
        || (s.serve jid).plans.any (fun p => p.step == j.nextStep)
      s.updJob jid (fun x => { x with nextAt := if planned then some at_ else none })

end Sys2Proof.Machine
end

