-- ==== Sys2Proof/Machine/Steps.lean ====
section
/-!
DEFINITION. Sys2Proof/Machine/Steps.lean: the life of a step: its start (R63, R68, R77, R233, R279, R372, R374), its sync
and commit beats (R74, R236, R266), its end, and its abandonment (R82 to R84, R267), with the fence (R40).
-/
namespace Sys2Proof.Machine

/-! ### The start of a step -/

/-- What a module is told of a step: class, batch description, control word, and whether all of it landed and agreed. -/
structure Told where
  cls : Nat
  description : List Byte
  control : List Byte
  ok : Bool
  /-- Tenants whose harvested rows run with Exclude set (R209). -/
  excluded : List Nat := []
  /-- A beacon came by a die-to-die link (R476). -/
  byDie : Bool := false

/-- The value that every landing carries, none where one is absent or differs (R77). -/
def agreed {α : Type} [DecidableEq α] : List (Option α) → Option α
  | [] => none
  | x :: rest => if rest.all (fun y => y == x) then x else none

/-- The image of a job is multi-module (R58). -/
def State.multi (s : State) (j : Job) : Bool := match s.jobImage j with | some i => bitOf (i.field 8 4) 3 | none => false

/-- What a module is told of a job's next step: from the original record in a replay (R397), from its own firmware on the
lead module (R271, R374), from the landings elsewhere (R77, R279, R374). -/
def toldStep (s : State) (jid : Nat) (j : Job) (ws : List StepWords) : Told :=
  let told : Told := toldBy s jid j ws
  { told with byDie := ws.any (fun w => w.byDie) }
where
 toldBy (s : State) (jid : Nat) (j : Job) (ws : List StepWords) : Told :=
  match j.replayRun.bind (fun x => SMap.find x.source j.nextStep) with
  | some orig =>
    { cls := leAt orig 0x1D 1, description := slice orig 224 (leAt orig 0x4C 4), control := slice orig 192 32, ok := true,
      excluded := (j.replayRun.map (fun x => x.excluded)).getD [] }
  | none =>
    let own := (SMap.find j.control j.nextStep).getD (controlWord j.nextStep 0 false false)
    let plan := (s.serve jid).current j.nextStep
    let told (c : Nat) (d : List Byte) : Told := { cls := c, description := d, control := own, ok := true }
    if s.leads j then
      -- a multi-module job's control word lands on its lead too; with one module firmware writes it in place (R374)
      let word := !s.multi j || !s.hasManifest j || (!ws.isEmpty && ws.all (fun w => w.control == some own))
      match plan with
      | some p =>
        { told p.cls p.sent with
          ok := word && !ws.isEmpty && ws.all (fun w => w.beacon == some p.cls && w.description == some p.sent) }
      | none => { told 0 [] with ok := word }
    else
      let ctl := agreed (ws.map (fun w => w.control))
      if j.serve.isSome then
        let b := agreed (ws.map (fun w => w.beacon))
        let d := agreed (ws.map (fun w => w.description))
        { cls := b.getD (((s.classes j).map (fun c => c.cls)).headD 0), description := d.getD [],
          control := ctl.getD (controlWord j.nextStep 0 false false), ok := b.isSome && d.isSome && (ctl.isSome || !s.hasManifest j) }
      else if s.hasManifest j then { cls := 0, description := [], control := ctl.getD own, ok := ctl.isSome }
      else told 0 []

/-- Whether a step of a class is an update step (R233). -/
def isUpdate (s : State) (j : Job) (cls : Nat) : Bool :=
  j.kind == 1 || j.kind == 2 || (j.kind == 4 && (s.classes j).any (fun c => c.cls == cls && c.training))

/-- Frames of a step of a class (R63). -/
def stepFrames (s : State) (j : Job) (cls : Nat) : Nat :=
  if serves j.kind then (((s.classes j).find? (fun c => c.cls == cls)).map (fun c => c.frames)).getD 16 else j.frames

/-- A job's next step can begin at its due stamp. -/
def stepReady (s : State) (jid : Nat) (j : Job) : Bool :=
  j.mode == .running && j.resident && j.ready && j.run.isNone && (match j.stop with | some x => !x.reached | none => true)
    && s.dataPlane && (match j.nextAt with | some t => decide (s.now ≤ t) | none => false)
    && (j.serve.isNone || j.replayRun.isSome || !s.leads j || ((s.serve jid).current j.nextStep).isSome)

/-- The update unit's 32 bytes (R233). -/
def updateUnit (j : Job) : List Byte :=
  leBytes 8 j.nextStep ++ leBytes 8 (j.u % 2 ^ 48 + 2 ^ 48 * b2n j.selector) ++ List.replicate 16 0

/-- Stores bytes at a unit of the tile bound to an image tile. -/
def storeAtImage (s : State) (j : Job) (img unit : Nat) (bs : List Byte) : State :=
  match j.tileOf img with
  | some t => s.updTile t (fun x => x.store (32 * unit) (bs.map some))
  | none => s

/-- A description's rows (R279): entry, position, tokens, harvest, tenant. -/
def descriptionRows (d : List Byte) : List PlanRow :=
  (List.range (leAt d 0x0A 2)).map (fun i =>
    let w := leAt d (64 + 64 * i) 64
    { entry := bitsOf w 511 498, slot := bitsOf w 497 484, position := bitsOf w 483 465, tokens := bitsOf w 464 446,
      harvest := bitOf w 445, discard := bitOf w 444, prefill := bitOf w 443, summary := bitOf w 442, tenant := bitsOf w 441 430 })

/-- A description as it lands where some tenants are excluded: the harvest bits of their rows are clear, and the image runs a row whose
bit is clear with Exclude set (R206, R209, log 101). -/
def excludeRows (excluded : List Nat) (d : List Byte) : List Byte :=
  (descriptionRows d).zipIdx.foldl (fun (bs : List Byte) x =>
    if x.1.harvest && excluded.contains x.1.tenant then
      let at_ := 64 + 64 * x.2 + 55
      bs.set at_ (BitVec.ofNat 8 (byteAt bs at_ &&& 0xDF))
    else bs) d

/-- A row of a description passes the longest position, or its class's (R80); the fault names the beacon tile, where the description
lands, with unit 7, at the step's first cycle (log 108). -/
def beyondLimit (s : State) (j : Job) (w : Told) : Bool :=
  let bound := (((s.classes j).find? (fun c => c.cls == w.cls)).map (fun c => c.position)).getD 262144
  (descriptionRows w.description).any (fun r => decide (min bound 262144 < r.position + r.tokens))

/-- The fates that the original records give packets, each with the step of its record (R265, R397). -/
def forcedFates (j : Job) : List (Nat × Fate) :=
  match j.replayRun with
  | none => []
  | some x => x.source.flatMap (fun e =>
      let orig := e.2
      let off := 224 + leAt orig 0x4C 4 + (if trains j.kind then 16 + 4 * bitsOf (leAt orig (224 + leAt orig 0x4C 4) 16) 47 36 else 0)
      (List.range (leAt orig 0x44 4)).map (fun i => (e.1, fateFrom (slice orig (off + 16 * i) 16))))

/-- The first cycle of a step (R63, R68, R110, R139, R233, R244): tiles cleared, the attempt count raised, the update unit,
the control word and the description in place; in a capture step the items and the module records are captured
(R371, R372). -/
def beginStep (s : State) (jid : Nat) (j : Job) (w : Told) : State :=
  let update := isUpdate s j w.cls
  let bt := s.srv j 0x3E 2
  let man := s.manifest j
  let ctlTile := leAt man 6 2
  let cap := if bitOf (leAt w.control 0x0C 1) 0 && s.hasManifest j then
      some (captureOf s jid j (leAt w.control 8 4) (bitOf (leAt w.control 0x0C 1) 1)) else none
  let run : StepRun := { number := j.nextStep, start := s.now, frames := stepFrames s j w.cls, cls := w.cls, update := update,
                         count0 := j.u, selector0 := j.selector, control := w.control, description := w.description,
                         forced := forcedFates j, capture := cap.isSome }
  let s1 := s.updJob jid (fun x => { x with
    run := some run, attempt := x.attempt + 1, voided := false, sync := [], nextAt := none, sealed := false,
    control := SMap.erase x.control j.nextStep, serve := x.serve.map (fun v => { v with begun := v.begun + 1 }) })
  let s2 := j.binding.foldl (fun (st : State) b => st.updTile b.2 (fun t =>
    let t1 := t.clearStep jid (stashPlan (s.jobSection j 6) b.1 w.cls)
    if trains j.kind then t1.store (32 * leAt (s.jobConstant j 3) 0x1C 4) ((updateUnit j).map some) else t1)) s1
  let s3 := if s.hasManifest j then storeAtImage s2 j ctlTile (leAt man 8 4) w.control else s2
  let s4 := if serves j.kind then storeAtImage s3 j bt (s.srv j 0x48 4) (excludeRows w.excluded w.description) else s3
  let s5 := match cap with
    | some c => s4.updJob jid (fun x => { x with capture := some c, snapNumber := max x.snapNumber c.number })
    | none => s4
  let die := if serves j.kind then bt / 12 else ctlTile / 12
  let s6 := if w.ok then s5 else s5.raise jid 0x09 s.now { die := die, unit := if w.byDie then 6 else 7 }
  if beyondLimit s j w then s6.raise jid 0x0A s.now { die := bt / 12, tile := bt % 12, unit := 7 } else s6

/-- STEP_START at the job's due stamp. Firmware's control words are written on the way (R374). -/
def startStep (s : State) (jid : Nat) (ws : List StepWords) : State :=
  match s.job jid with
  | none => s
  | some j0 =>
    if stepReady s jid j0 then
      let s1 := s.advance (j0.nextAt.getD s.now)
      let s2 := if s1.leads j0 && j0.serve.isNone && (SMap.find j0.control j0.nextStep).isNone then
          writeControl s1 jid j0.nextStep (isUpdate s1 j0 0) else s1
      match s2.job jid with
      | none => s2
      | some j =>
        let s3 := beginStep s2 jid j (toldStep s2 jid j ws)
        if s3.leads j && j.serve.isNone && j.replayRun.isNone then writeControl s3 jid (j.nextStep + 1) (isUpdate s3 j 0) else s3
    else s

/-! ### Beats -/

/-- No commit beat fires: a die has been declared lost in this frame (R384). -/
def State.lossBar (s : State) : Bool :=
  match s.lossAt with | some t => decide (t ≤ s.now) && decide (s.now < nextFrame t) | none => false

/-- An object's outcome at its beat (R74). -/
def beatFires (s : State) (r : StepRun) (d : SyncDecl) (x : SyncObj) : Bool :=
  (if d.counter then x.count == d.expected else decide (d.expected ≤ x.count))
    && (!d.commit || (r.faults.isEmpty && !s.lossBar))

/-- A beat taken at the clock's cycle: the outcome kept, and the fault raised where a barrier does not fire or a counter differs from
its expected value (R74, R476). Answers whether it fired. -/
def takeBeat (s : State) (jid obj : Nat) : State × Bool :=
  match s.job jid with
  | none => (s, false)
  | some j =>
    match j.live, (syncDecls (s.jobSection j 7))[obj]? with
    | some r, some d =>
      let x := SMap.getD {} j.sync obj
      let ok := beatFires s r d x
      let s1 := (s.setJob jid { j with sync := SMap.set j.sync obj { x with beaten := true, fired := ok } }).trace jid 1 0 63 9 obj 3 [b2n ok, x.count]
      let bad := if d.counter then x.count != d.expected else !ok
      (if bad then s1.raise jid (if d.counter then 0x07 else 0x06) s.now { die := 7, unit := 9, object := obj } else s1, ok)
    | _, _ => (s, false)

/-- The stamp of an object's beat in the running step, where it is still to come. -/
def beatAt (s : State) (j : Job) (obj : Nat) : Option Nat :=
  match j.live, (syncDecls (s.jobSection j 7))[obj]? with
  | some r, some d =>
    if (SMap.getD ({} : SyncObj) j.sync obj).beaten || decide (r.start + d.beat < s.now) then none else some (r.start + d.beat)
  | _, _ => none

/-- Sum of the NaN totals of close words. -/
def nanTotal (ws : List CloseWord) : Nat := ws.foldl (fun n w => n + w.nan) 0

/-- A commit beat that fires (R236, R254, R260, R266): the beat count rises, places of consumed packets are free, and in an
update step the update commits or is skipped. -/
def commitFired (j : Job) (r : StepRun) : Job :=
  let skip := !j.applyNan && j.nanSum + nanTotal r.words != 0
  let j1 := { j with beats := j.beats + 1, run := some { r with freed := true } }
  if !r.update then j1
  else if skip then { j1 with skipped := j.skipped + 1, run := some { r with freed := true, updated := 2 } }
  else { j1 with selector := !j.selector, u := j.u + 1, run := some { r with freed := true, updated := 1 } }

/-! ### The end of a step -/

/-- Every beat and every close of a step has come (R55). -/
def beatsTaken (s : State) (j : Job) (r : StepRun) : Bool :=
  (syncDecls (s.jobSection j 7)).zipIdx.all (fun d =>
    decide (65536 * r.frames ≤ d.1.beat) || (SMap.getD ({} : SyncObj) j.sync d.2).beaten)
  && (bucketEntries (s.jobSection j 5)).all (fun b =>
    !b.homed || (closeBeat r b).isNone || (SMap.getD ({} : BucketRun) r.homes b.bucket).closed)

/-- Ungated lane products of a job's tiles (R461). -/
def ungatedSum (s : State) (j : Job) : Nat :=
  j.binding.foldl (fun n b => n + (s.tile b.2).hawk.ungated + (s.tile b.2).float.ungated) 0

/-- A batch row is harvested (R205): its bit is set, and its sequence is not one that had finished and is retained in the batch; in a
replay the original record's ledger says which are (R209). A module that does not lead the job is told of no finish: there the answer
is free (log 126). -/
def harvestedRow (j : Job) (r : StepRun) (row : PlanRow) : Bool :=
  row.harvest &&
  (match j.replayRun.bind (fun x => SMap.find x.source r.number) with
   | some orig =>
     let t := 224 + leAt orig 0x4C 4
     let off := t + 16 + 4 * bitsOf (leAt orig t 16) 47 36 + 16 * leAt orig 0x44 4
     (List.range (leAt orig 0x48 4)).any (fun i =>
       let w := leAt orig (off + 16 * i) 16
       bitsOf w 79 62 == row.position % 2 ^ 18 && bitsOf w 61 48 == row.entry)
   | none =>
     match (j.serve.getD {}).current r.number with
     | some p => !p.rows.any (fun x => x.entry == row.entry && x.finished)
     | none => !Config.finishedRow r.number row.entry)

/-- The ledger entries of a step (R205, R208, R209), in order of batch row. -/
def ledgerOf (j : Job) (r : StepRun) (outs : List RowOut) (abandoned : Bool) : List (List Byte) :=
  let excluded := (j.replayRun.map (fun x => x.excluded)).getD []
  if j.kind = 4 then
    ((descriptionRows r.description).zipIdx.filter (fun x => harvestedRow j r x.1)).map (fun x =>
      ledgerEntry r.number x.1 (outs.getD x.2 {}) abandoned (excluded.contains x.1.tenant) r.count0)
  else []

/-- What the rows of a step cut short by a fence had come to: the spec gives no event that tells it, so whether each was void is free
(log 99). -/
def openRows (s : State) (r : StepRun) : List RowOut :=
  (descriptionRows r.description).zipIdx.map (fun x => { void := bitOf (Config.freeBits (s.draws + x.2)).toNat 0 })

/-- The next step number of a replay that an original record covers (R397). -/
def replayNext (x : ReplayRun) (from_ : Nat) : Option Nat :=
  firstMin (fun a b => decide (a ≤ b)) ((x.source.map (fun e => e.1)).filter (fun n => decide (from_ ≤ n) && decide (n ≤ x.last)))

/-- A replay after one of its steps (R397, R398): on to its next step, or PAUSED and answered; either way this is a step boundary of
the job, at which a withdrawal, a switch or a rest takes effect (R332, R334, R460). -/
def replayStep (s : State) (jid at_ : Nat) (r : StepRun) : State :=
  match s.job jid with
  | none => s
  | some j =>
    match j.replayRun with
    | none => s
    | some x =>
      let x1 := { x with ran := x.ran + 1 }
      if r.diverged then
        let s1 := s.updJob jid (fun y => { y with mode := .paused, nextAt := none, replayRun := none })
        boundary (s1.answerJob 0x0305 jid { status := stDeviceFault, stamp := at_, words := [r.number % 2 ^ 32] }) jid at_ r.frames
      else
        match replayNext x1 j.nextStep with
        | some n => boundary (s.updJob jid (fun y => { y with nextStep := n, replayRun := some x1 })) jid at_ r.frames
        | none =>
          let s1 := s.updJob jid (fun y => { y with mode := .paused, nextAt := none, replayRun := none })
          boundary (s1.answerJob 0x0305 jid { status := stOk, stamp := at_, words := [x1.ran] }) jid at_ r.frames

/-- A replayed step lacks a packet that the original took on time (R398): fewer have been accepted than the original's report counts. -/
def lacksPacket (s : State) (j : Job) (r : StepRun) : Bool :=
  match j.replayRun with
  | none => false
  | some x =>
    match SMap.find x.accepted r.number with
    | some n => decide (satNat 32 r.red.accepted < n)
    | none => (bucketEntries (s.jobSection j 5)).any (fun b => b.homed) && x.accepted.isEmpty && Config.absentPacket r.number

/-- A completed step (R63, R276, R296, R394, R395, R414): outcomes, record and report, replies, the boundary. -/
def finishStep (s : State) (jid : Nat) (j : Job) (r0 : StepRun) (outs : List RowOut) : State :=
  let r := if lacksPacket s j r0 then { r0 with diverged := true } else r0
  let stop := r.stop - 1
  let ledger := ledgerOf j r outs false
  let outcome := if j.replayRun.isSome then (if r.diverged then 3 else 2) else 0
  let s1 := if j.serve.isSome && j.replayRun.isNone && s.leads j then (endServing s jid r stop outs).1 else s
  let s2 := writeRecord s1 jid r stop outcome ledger.length ledger
  let s3 := s2.updJob jid (fun x => { x with
    run := none, nextStep := r.number + 1, abandonRow := 0, load := (ungatedSum s j, r.frames),
    nanSum := if r.update then 0 else x.nanSum + nanTotal r.words
    lastUpdate := if r.update then some r.number else x.lastUpdate
    givenUp := x.givenUp.filter (fun n => n != r.number) })
  let s4 := s3.answerJob 0x0301 jid { status := stOk, stamp := stop, words := [jid, 0, r.number % 2 ^ 32, r.number / 2 ^ 32] }
  let s5 := s4.answerJob 0x0303 jid { status := stOk, stamp := stop }
  let s6 := { s5 with now := max s5.now r.stop }
  if j.replayRun.isSome then replayStep s6 jid r.stop r else boundary s6 jid r.stop r.frames

/-- STEP_END at a step's last cycle: only a step without faults ends, its beats and closes taken; a step with a fault ends
at its abandon boundary (R83). -/
def endStep (s : State) (jid : Nat) (outs : List RowOut) : State :=
  match (s.job jid).bind (fun j => j.live) with
  | none => s
  | some r0 =>
    if r0.stop - 1 < s.now ∨ !r0.faults.isEmpty then s
    else
      let s1 := s.through (r0.stop - 1)
      match s1.job jid with
      | none => s1
      | some j =>
        match j.live with
        | some r => if r.faults.isEmpty && beatsTaken s1 j r then finishStep s1 jid j r outs else s1
        | none => s1

/-! ### Abandonment -/

/-- A micro-operation that an abandonment ends: everything of the job but packets on their way, which fail the attempt
test, and writes that have reached their controller (R83, R267). -/
def Op.dies (o : Op) (jid : Nat) : Bool :=
  o.job == jid && (match o.act with | .packet _ _ => false | .memStore _ _ => false | _ => true)

/-- The carry queue of a controller after an abandonment (R267): the step's own packets gone, those that a close examined
back. -/
def restoreQueue (c : Ctl) (jid number tag : Nat) (before : Option (List Packet)) : Ctl :=
  let own (p : Packet) : Bool := p.step == number && p.attempt == tag
  let mine := ((before.getD c.carry).filter (fun p => p.job == jid)).filter (fun p => !own p)
  { c with carry := c.carry.filter (fun p => p.job != jid) ++ mine }

/-- A step in progress given up at a stamp (R83, R228, R267, R378, R394): nothing in flight has further effect, scoreboards
and sync objects are clear, its record says abandoned. An abandoned training step is not counted towards n_t (R204 speaks of serving
steps only; log 119). -/
def dropStep (s : State) (jid at_ : Nat) (j : Job) (r : StepRun) (outs : List RowOut) : State :=
  let s1 : State := { s with
    inflight := s.inflight.filter (fun (o : Op) => !o.dies jid),
    links := s.links.map (fun e => (e.1, { e.2 with sched := e.2.sched.filter (fun q => q.flit.job != jid) })) }
  let ledger := ledgerOf j r outs true
  let s2 := (dropPlans s1 jid (some r)).1
  let s3 := writeRecord s2 jid { r with updated := if r.update && r.updated == 0 then 3 else r.updated } at_ 1 ledger.length ledger
  let s4 := (List.range 20).foldl (fun (st : State) c => st.updCtl c (fun x =>
    restoreQueue x jid r.number j.tag (SMap.find r.queues c))) s3
  let s5 := j.binding.foldl (fun (st : State) b => st.updTile b.2 (fun t => { t with score := [] })) s4
  let s6 := if r.capture then discardCapture s5 jid else s5
  s6.updJob jid (fun x => { x with
    run := none, sync := [], sealed := r.sealed && r.update && r.updated == 0, restUntil := none, voided := true,
    givenUp := x.givenUp ++ [r.number],
    closing := some { r with abandoned := true },
    serve := x.serve.map (fun v => if r.update then { v with begun := v.begun - 1 } else v) })

/-- A job PAUSED at a boundary, its serving plans dropped. -/
def enterPaused (s : State) (jid : Nat) : State :=
  s.updJob jid (fun x => { x with
    mode := .paused, nextAt := none, pauseAsk := none, restUntil := none, replayRun := none, abandonRow := 0 })

/-- What a job does after an abandoned step, by its kind (R84): a withdrawal ends it (R334), a serving job goes on from a
fresh plan, any other job, and a serving job after four in a row, is PAUSED; the rule does not name a test job (kind 6), which is taken with the
others (log 107). A withdrawal that names a later last step lets a serving job go on. Where a serving job goes on, its lead module waits
for a tick's fresh plan, and on another module the next step falls due at the abandon boundary itself (log 121). -/
def afterAbandon (s : State) (jid at_ : Nat) : State :=
  match s.job jid with
  | none => s
  | some j =>
    if (match j.stop with | some x => decide (x.frame ≤ frameOf at_) && x.last.all (fun l => decide (l ≤ j.nextStep)) | none => false)
      then fenceJob s jid
    else if serves j.kind && j.replayRun.isNone then
      let s1 := s.updJob jid (fun x => { x with nextStep := x.nextStep + 1, abandonRow := x.abandonRow + 1 })
      if j.abandonRow + 1 < 4 then
        let s2 := boundary s1 jid at_ 0
        if s2.leads j then s2.updJob jid (fun x => { x with nextAt := none }) else s2
      else
        let s2 := s1.answerJob 0x0302 jid { s1.reply stOk with words := [(j.nextStep + 1) % 2 ^ 32, (j.nextStep + 1) / 2 ^ 32] }
        enterPaused s2 jid
    else
      let s2 := s.answerJob 0x0302 jid { s.reply stOk with words := [j.nextStep % 2 ^ 32, j.nextStep / 2 ^ 32] }
      enterPaused s2 jid

/-- The reply that carries a primary fault (R84, R416). -/
def faultReply (at_ : Nat) (f : FaultRec) : Reply :=
  { status := stContractFault, stamp := at_, long := true,
    words := [0, 0, 0, 0] ++ (List.range 8).map (fun i => leAt f.bytes (4 * i) 4) }

/-- A fault list closes (R83): the record of the abandoned step takes the whole list, and replies that wait carry its
primary fault (R84). -/
def closeFaults (s : State) (jid at_ : Nat) : State :=
  match s.job jid with
  | none => s
  | some j =>
    match j.closing with
    | none => s
    | some c =>
      let fix (x : StepRecord) : StepRecord :=
        if x.step = c.number ∧ x.outcome = 1 ∧ leAt x.record 8 8 = c.start then
          let outside := (faultsIn x.record).filter (fun f => f.step == 2 ^ 48 - 1)
          { x with record := refault x.record (leAt x.record 0x40 4) (c.faults ++ outside) }
        else x
      let s1 := s.setJob jid { j with closing := none, records := j.records.map fix }
      match c.faults with
      | f :: _ =>
        if j.mode == .paused then
          let r := faultReply at_ f
          ((s1.answerJob 0x0301 jid r).answerJob 0x0303 jid r).answerJob 0x0305 jid r
        else s1
      | [] => s1
where
  /-- The fault records at the end of a step record (R394). -/
  faultsIn (orig : List Byte) : List FaultRec :=
    let n := leAt orig 0x40 4
    (List.range n).map (fun i => faultFrom (slice orig (orig.length - 32 * n + 32 * i) 32))

/-- STEP_ABANDON at the boundary that the step's faults fix (R82, R83, R84). -/
def abandonStep (s : State) (jid : Nat) (outs : List RowOut) : State :=
  match s.job jid with
  | none => s
  | some j0 =>
    match j0.live.bind (fun r => r.boundary j0.notice) with
    | none => s
    | some b =>
      if b < s.now then s
      else
        let s1 := closeFaults (s.reach b) jid b
        match s1.job jid with
        | none => s1
        | some j =>
          match j.live with
          | some r => afterAbandon (dropStep s1 jid b j r outs) jid b
          | none => s1

/-! ### The fence (R40, R384, R454, R460) -/

/-- One job fenced at a stamp: its step in progress is abandoned without commit, its commands answered DEVICE_FAULT, and it
enters `mode`. A withdrawal under way ends it (R334). -/
def fenceOne (s : State) (jid at_ : Nat) (mode : JobMode) : State :=
  match s.job jid with
  | none => s
  | some j =>
    let s1 := match j.run with
      | some r =>
        let rows := openRows s r
        (dropStep { s with draws := s.draws + rows.length } jid at_ j r rows).updJob jid (fun x => { x with closing := none })
      | none => (dropPlans s jid none).1
    let s2 := s1.answerAll jid stDeviceFault (fun op => j.stop.isSome && op == 0x0304)
    let s3 := s2.updJob jid (fun x => { x with
      mode := if x.mode == .running || mode != .paused then mode else x.mode, nextAt := none, pauseAsk := none, leaving := none,
      restUntil := none, replayRun := none, abandonRow := 0 })
    if j.stop.isSome then fenceJob s3 jid else s3

/-- The whole data plane fenced at a stamp (R40). -/
def fencePlane (s : State) (at_ : Nat) : State :=
  let s1 := s.jobs.foldl (fun (st : State) e => fenceOne st e.1 at_ .paused) s
  let s2 := s1.switches.foldl dropSwitch s1
  { s2 with links := s2.links.map (fun e => (e.1, { e.2 with sched := [], lossQ := [] })) }

end Sys2Proof.Machine
end

