-- ==== Sys2Proof/Machine/Checks.lean ====
section
/-!
DEFINITION. Sys2Proof/Machine/Checks.lean: the checks of IMAGE_LOAD (R58 to R62, R73, R75, R119, R180, R185, R204, R223, R225,
R229 to R231, R240, R245, R269, R270, R290, R320, R361, R370, R473, R474). A value that a table marks Reserved counts as
a non-zero Reserved field, as R119 says of descriptors.
-/
namespace Sys2Proof.Machine

/-! ### Small tests -/

/-- Bits [hi:lo] of a record are zero. -/
def clear (w hi lo : Nat) : Bool := bitsOf w hi lo == 0

/-- A number in a range. -/
def within (lo hi v : Nat) : Bool := decide (lo ≤ v) && decide (v ≤ hi)

/-- No value twice. -/
def distinct {α : Type} [BEq α] : List α → Bool
  | [] => true
  | x :: rest => !rest.contains x && distinct rest

/-- Two ranges, each a first number and a length, share a number. -/
def meets (a b : Nat × Nat) : Bool := decide (a.1 < b.1 + b.2) && decide (b.1 < a.1 + a.2)

/-- No two of the ranges that carry one key share a number: key, first number, length. -/
def disjointBy : List (Nat × Nat × Nat) → Bool
  | [] => true
  | x :: rest => rest.all (fun y => !(x.1 == y.1 && meets x.2 y.2)) && disjointBy rest

/-! ### The directory (R59) -/

/-- A directory entry. -/
structure DirEnt where
  type : Nat
  body : Nat
  spare : Nat
  flags : Nat
  off : Nat
  len : Nat
  tail : Nat
  deriving DecidableEq, Repr

/-- The directory of an image file. -/
def dirOf (f : List Byte) : List DirEnt :=
  (List.range (leAt f 0x0E 2)).map (fun i =>
    let e := slice f (256 + 32 * i) 32
    { type := leAt e 0 2, body := leAt e 2 1, spare := leAt e 3 1, flags := leAt e 4 4, off := leAt e 8 8,
      len := leAt e 16 8, tail := leAt e 24 8 })

/-- The signature section, where it can be located (R61). -/
def signatureOf (f : List Byte) : Option DirEnt :=
  if 256 + 32 * leAt f 0x0E 2 ≤ f.length then
    match (dirOf f).filter (fun e => e.type == 0xFF) with
    | [e] => if 104 ≤ e.len ∧ e.off + 104 ≤ f.length then some e else none
    | _ => none
  else none

/-- The image of a file as a partition holds it, under handle 0. -/
def imageOf (pid : Nat) (f : List Byte) : Image :=
  { part := pid, handle := 0, header := f.take 256,
    sections := ((dirOf f).filter (fun e => e.type != 0xFF)).map (fun e =>
      { type := e.type, body := e.body, flags := e.flags, data := slice f e.off e.len }),
    digest := sha256 (f.take ((signatureOf f).map (fun e => e.off) |>.getD 0)) }

/-- The signing key that an index names for a partition (R448). -/
def State.signingKey (s : State) (pid index : Nat) : Option (List Byte) :=
  if index < 8 then SMap.find s.store.keys index
  else if index < 16 then SMap.find s.store.keys (16 * (pid + 1) + index)
  else none

/-- Check 1 (R60, R61, R448). -/
def check1 (s : State) (pid : Nat) (f : List Byte) : Bool :=
  match signatureOf f with
  | none => false
  | some e =>
    let sig := slice f e.off 104
    let dig := sha256 (f.take e.off)
    match s.signingKey pid (leAt sig 0 4) with
    | none => false
    | some k => slice sig 8 32 == dig && ecdsaVerify k dig (beNat (slice sig 40 32)) (beNat (slice sig 72 32))

/-! ### What a body carries -/

/-- Sections of one type of a body. -/
def Image.typed (i : Image) (b type : Nat) : List Section := i.sections.filter (fun x => x.body == b && x.type == type)

/-- Constants of one kind of a body (R179). -/
def Image.consts (i : Image) (b kind : Nat) : List Section :=
  (i.typed b 10).filter (fun x => x.flags % 16 == kind)

/-- The bodies of an image (R58). -/
def Image.bodies (i : Image) : List Nat :=
  0 :: ((List.range 5).filter (bitOf (i.field 0x89 1))).map (fun n => n + 1)

/-- The kind of an image. -/
def Image.kind (i : Image) : Nat := i.field 6 2

/-- A flag of the header (R58). -/
def Image.flag (i : Image) (n : Nat) : Bool := bitOf (i.field 8 4) n

/-- The body's section of a type, empty where it has none. -/
def Image.data (i : Image) (b type : Nat) : List Byte := (i.section_ b type).getD []

/-- The body's constant of a kind, empty where it has none. -/
def Image.const (i : Image) (b kind : Nat) : List Byte := (i.constant b kind).getD []

/-- The records of a program, as numbers (R64). -/
def records (bs : List Byte) : List Nat := recordsAt bs 0 16 (bs.length / 16)

/-- The programs and alternate programs of a body: image tile and data. -/
def Image.programs (i : Image) (b : Nat) : List (Nat × List Byte) :=
  (i.typed b 1 ++ i.typed b 2).map (fun x => (x.flags % 64, x.data))

/-! ### Check 2 -/

/-- How many sections of a type or constants of a kind a body carries, within bounds (R59, R474). -/
def countsOk (i : Image) (b : Nat) : Bool :=
  let k := i.kind
  let n (t : Nat) : Nat := (i.typed b t).length
  let c (x : Nat) : Nat := (i.consts b x).length
  let should (want : Bool) (have_ : Nat) : Bool := have_ == b2n want
  let twoFour := k == 2 || k == 4
  n 3 == 1 && should (i.flag 2) (n 4) && decide (n 5 ≤ 1) && decide (n 6 ≤ 1) && n 7 == 1 && should (serves k) (n 8)
    && should (b != 0) (n 9) && decide (n 11 ≤ 1)
    && should twoFour (c 1) && should (trains k) (c 3) && should (serves k) (c 4)
    && decide (c 5 ≤ b2n (trains k)) && should twoFour (c 6)
    && (i.typed b 10).all (fun x => decide (x.flags % 16 ≤ 6))

/-- The header, the directory and the signature section (R58, R59, R61, R290). -/
def frameOk (f : List Byte) (i : Image) : Bool :=
  let k := i.kind
  let ds := dirOf f
  let dirEnd := 256 + 32 * ds.length
  let sf := i.field 0x10 4
  i.field 0 4 == 0x4D584731 && i.field 4 2 == 1 && within 1 6 k && within 1 1024 (i.field 0x0C 2) && within 1 4096 ds.length
    && (if serves k then sf == 0 else within 1 65535 sf) && within 1024 32768 (i.field 0x14 4)
    && ds.all (fun e => (within 1 11 e.type || e.type == 0xFF) && i.bodies.contains e.body && e.off % 4096 == 0
        && decide (dirEnd ≤ e.off) && decide (e.off + e.len ≤ f.length))
    && disjointBy (ds.map (fun e => (0, e.off, e.len)))
    && (match signatureOf f with
        | some g => g.len == 104 && g.body == 0 && g.off + 104 == f.length && ds.all (fun e => decide (e.off ≤ g.off))
        | none => false)
    && (!i.flag 1 || serves k)

/-- Image tiles and classes of the programs (R64, R473). -/
def programsOk (i : Image) (b : Nat) : Bool :=
  let key (x : Section) : Nat × Nat := (x.flags % 64, bitsOf x.flags 13 8)
  let ps := i.typed b 1
  let as_ := i.typed b 2
  let cls := (shapeClasses (i.data b 8)).map (fun c => c.cls)
  distinct (ps.map key) && distinct (as_.map key) && as_.all (fun x => (ps.map key).contains (key x))
    && (ps ++ as_).all (fun x => decide (x.flags % 64 < 60)
      && (if serves i.kind then cls.contains (key x).2 else (key x).2 == 0)
      && x.data.length % 16 == 0)

/-- Records sorted by cycle offset: those a repeat spans among themselves, and the others among themselves (R64, R65). -/
def sortedFrom : Nat → Nat → List Nat → Bool
  | 0, _, _ => false
  | _ + 1, _, [] => true
  | fuel + 1, last, w :: rest =>
    let c := bitsOf w 127 96
    decide (last ≤ c) &&
      (if bitsOf w 95 92 = 15 then
        sortedFrom fuel 0 (rest.take (bitsOf w 19 8)) && sortedFrom fuel c (rest.drop (bitsOf w 19 8))
       else sortedFrom fuel c rest)

/-- The FOOTPRINT of an alternate body (R58). -/
def footprintOk (i : Image) (b : Nat) : Bool :=
  b == 0 || ((i.data b 9).length == 88 && leAt (i.data b 9) (8 * (b - 1)) 8 == 0 && leAt (i.data b 9) (40 + 8 * (b - 1)) 8 == 0)

/-- SYNC and SHAPE_CLASSES (R73, R75, R204). -/
def plansOk (i : Image) (b : Nat) : Bool :=
  let sy := i.data b 7
  let cs := shapeClasses (i.data b 8)
  let le (x y : ShapeClass) : Bool := decide (x.frames < y.frames) || (x.frames == y.frames && decide (x.cls ≤ y.cls))
  leAt sy 0 4 == i.field 0x1C 4 && decide (16 + 8 * leAt sy 0 4 ≤ sy.length)
    && (!serves i.kind ||
      (leAt (i.data b 8) 0 4 == i.field 0x88 1 && decide (16 + 32 * leAt (i.data b 8) 0 4 ≤ (i.data b 8).length)
        && distinct (cs.map (fun c => c.cls)) && sortBy le cs == cs
        && cs.all (fun c => decide (16 ≤ c.frames) && decide (c.seqs ≤ 16384) && decide (1 ≤ c.position))
        && (i.kind != 4 || (cs.filter (fun c => c.seqs == 0 && c.prompt == 0)).length == 1)))

/-- The slot reservations of LATH_SLOTS (R361). -/
def reservations (bs : List Byte) : List Nat := recordsAt bs (16 + 16 * leAt bs 4 4 + 32 * leAt bs 0 4) 8 (leAt bs 8 4)

/-- DIE_LINK_SLOTS and LATH_SLOTS (R361). -/
def slotsOk (i : Image) (b : Nat) : Bool :=
  let d := i.data b 3
  let l := i.data b 4
  let ls := (lathLinks l).map (fun e => e.1)
  decide (16 + 32 * leAt d 0 4 ≤ d.length)
    && (!i.flag 2 ||
      (l.length == 16 + 16 * leAt l 4 4 + 32 * leAt l 0 4 + 8 * leAt l 8 4 && within 1 64 (leAt l 4 4) && distinct ls
        && (lathLinks l).all (fun e => decide (e.2.1 ≤ 2))
        && (reservations l).all (fun w => ls.contains (bitsOf w 63 58) && decide (bitsOf w 57 51 ≤ 83))))
    && (tEntries false d ++ (if i.flag 2 then tEntries true l else [])).all (fun e => within 1 7680 e.units)

/-- The parameter entries of a body. -/
def Image.params (i : Image) (b : Nat) : List ParamEntry := paramEntries (i.const b 3)

/-- SCREED_SLOTS (R245, R250). -/
def screedOk_ (i : Image) (b : Nat) : Bool :=
  let bs := i.data b 5
  let buckets := bucketEntries bs
  let sends := sendEntries bs
  let cs := shapeClasses (i.data b 8)
  let trainCls := (cs.filter (fun c => c.seqs == 0 && c.prompt == 0)).map (fun c => c.cls)
  let sel := selectors (i.const b 3)
  (i.typed b 5).isEmpty ||
    (within 1 65536 (leAt bs 0 4) && decide (leAt bs 4 4 ≤ 983040) && decide (16 + 64 * leAt bs 0 4 + 32 * leAt bs 4 4 ≤ bs.length)
      && buckets.all (fun k => within 1 16 k.size && decide (k.die ≤ 4)
        && (k.cls == 0xFF || cs.any (fun c => c.cls == k.cls)) && decide (k.close + k.grace ≤ k.settle)
        && !(i.kind == 4 && trainCls.contains k.cls && decide (32768 ≤ leAt (i.const b 1) 0x0C 2))
        && ((sel[k.selector]?).map (fun x => x.family) == some 1)
        && (!k.homed || (i.params b).any (fun p => p.tensor == k.tensor && p.die == k.die && p.owner
            && decide (p.first ≤ k.element) && decide (k.element + k.elements ≤ p.first + p.elements))))
      && disjointBy (buckets.map (fun k => (20 * k.module + 4 * k.die + k.ctl, k.acc, k.elements / 4)))
      && sends.all (fun x => x.elements % 2048 == 0 && decide (x.tile < 60)
        && (if x.mode = 2 then within 1 8 x.ratio else x.ratio == 0 && x.list == 0) && (x.mode != 0 || x.residual == 0)))

/-- The stash plan (R223): its ranges, tile, first unit and units. -/
def stashRanges (bs : List Byte) : List (Nat × Nat × Nat) :=
  (recordsAt bs 8 16 (leAt bs 0 4)).map (fun w => (bitsOf w 127 122, 32 * bitsOf w 103 89, 32 * bitsOf w 88 74))

/-- STASH_PLAN (R223). -/
def stashPlanOk (i : Image) (b : Nat) : Bool :=
  let bs := i.data b 6
  let ws := recordsAt bs 8 16 (leAt bs 0 4)
  (i.typed b 6).isEmpty ||
    (within 1 960 (leAt bs 0 4) && decide (8 + 16 * leAt bs 0 4 ≤ bs.length)
      && distinct (ws.map (fun w => bitsOf w 127 114))
      && ws.all (fun w => decide (bitsOf w 127 122 < 60) && decide (bitsOf w 88 74 ≤ 16384)
        && decide (bitsOf w 103 89 + bitsOf w 88 74 ≤ 24576)
        && (decide (bitsOf w 121 114 < 64) || bitsOf w 121 114 == 0xFF)))

/-- The distillation table and the remap tables (R179, R180). -/
def distilOk (i : Image) (b : Nat) : Bool :=
  let t := i.const b 1
  let k := i.kind
  let vt := leAt t 0x14 4
  let remaps := (i.consts b 2).map (fun x => x.data)
  let scatter := (if i.flag 2 then tEntries true (i.data b 4) else []).any (fun e => e.receive && e.mode == 2)
  let period (v hi : Nat) : Bool := if k = 4 then within 1 hi v else v == 0
  if k = 2 ∨ k = 4 then
    t.length == 32 && within 1 4 (leAt t 0 4) && decide (leAt t 4 4 ≤ 4096) && decide (leAt t 8 4 ≤ 2)
      && period (leAt t 0x0C 2) 65535 && period (leAt t 0x0E 2) 255 && within 1 262144 vt
      && !(leAt t 4 4 != 0 && leAt t 8 4 == 2 && !scatter)
      && distinct (remaps.map (fun r => leAt r 0 4))
      && (List.range 4).all (fun s => bitOf (leAt t 0x10 4) s == (remaps.map (fun r => leAt r 0 4)).contains s)
      && remaps.all (fun r => decide (leAt r 0 4 < 4) && within 1 262144 (leAt r 4 4)
        && r.length == 8 + 4 * leAt r 4 4
        && (recordsAt r 8 4 (leAt r 4 4)).all (fun v => decide (v < vt)) && distinct (recordsAt r 8 4 (leAt r 4 4)))
  else remaps.isEmpty

/-- The rings of a conduit map (R185): image tile, first unit, units. -/
def rings (bs : List Byte) : List (Nat × Nat × Nat) :=
  (recordsAt bs 16 16 (leAt bs 0 4)).map (fun w => (bitsOf w 127 122, bitsOf w 115 96, bitsOf w 95 76))

/-- The loss tiles of a body (R176): image tiles whose programs issue class 0x24. -/
def lossTiles (i : Image) (b : Nat) : List Nat :=
  ((i.programs b).filter (fun p => (records p.2).any (fun w => bitsOf w 95 92 == 3 && bitsOf w 91 84 == 0x24))).map (fun p => p.1)

/-- The conduit map (R185, R474). -/
def conduitOk (i : Image) (b : Nat) : Bool :=
  let m := i.const b 6
  let rs := rings m
  let items := manItems (i.const b 5)
  (i.consts b 6).isEmpty ||
    (within 1 960 (leAt m 0 4) && decide (16 + 16 * leAt m 0 4 ≤ m.length)
      && rs.all (fun r => decide (r.1 < 60) && within 1 786432 r.2.2 && decide (r.2.1 + r.2.2 ≤ 786432))
      && disjointBy rs
      && rs.all (fun r => (stashRanges (i.data b 6)).all (fun x => !(x.1 == r.1 && meets x.2 r.2))
        && items.all (fun m => !(m.kind == 3 && m.tile == r.1 && meets (m.off, ceilDiv m.len 32) r.2)))
      && (lossTiles i b).all (fun t => rs.any (fun r => r.1 == t)))

/-- A non-negative finite FP32 pattern (R229). -/
def fpNonNeg (x : Nat) : Bool := decide (x < 0x7F800000) || x == 0x80000000

/-- The training map (R225, R229, R230, R240). -/
def trainingOk (i : Image) (b : Nat) : Bool :=
  let t := i.const b 3
  let beta (x : Nat) : Bool := decide (x < 0x3F800000) || x == 0x80000000
  let com := (syncDecls (i.data b 7))[leAt t 0x20 4]?
  let ws := phaseWindows t
  (i.consts b 3).isEmpty ||
    (within 1 65536 (leAt t 0 4) && decide (leAt t 4 2 ≤ 1024) && decide (leAt t 6 2 ≤ 960) && within 1 65536 (leAt t 8 4)
      && t.length == 64 + 32 * leAt t 0 4 + 16 * leAt t 4 2 + 16 * leAt t 6 2 + 4 * leAt t 8 4
      && beta (leAt t 0x0C 4) && beta (leAt t 0x10 4) && within 0x00800000 0x7F7FFFFF (leAt t 0x14 4) && fpNonNeg (leAt t 0x18 4)
      && decide (leAt t 0x1C 4 < 786432) && (match com with | some d => d.commit && within 1 2 d.scope | none => false)
      && (i.params b).all (fun p => decide (p.die ≤ 4) && p.elements % 32 == 0 && decide (0 < p.elements) && p.first % 32 == 0)
      && (selectors t).all (fun x => decide (x.tile < 60) && x.block % 8 == 0 && decide (x.block < 786432)
        && decide (-126 ≤ x.exponent) && (x.family == 1 || x.fmt == 0))
      && ws.all (fun w => decide (w.tile < 60) && decide (w.start ≤ w.stop))
      && disjointBy (ws.map (fun w => (w.tile, w.start, w.stop - w.start))))

/-- The serving table (R269, R270, R290). -/
def servingOk (i : Image) (b : Nat) : Bool :=
  let t := i.const b 4
  let cs := shapeClasses (i.data b 8)
  let n := cs.length
  let sp := leAt t 0x3D 1
  let cls (k : Nat) : List Byte := slice t (112 + 8 * k) 8
  let need := (cs.zipIdx.map (fun c => 64 + 64 * c.1.seqs + 16 * leAt (cls c.2) 1 2)).foldl max 64
  (i.consts b 4).isEmpty ||
    (within 1 1048576 (leAt t 0 4) && leAt t 4 4 % 4096 == 0 && decide (0 < leAt t 4 4) && within 1 16384 (leAt t 0x18 4)
      && decide (leAt t 0x1C 4 ≤ 16777216) && decide (leAt t 0x30 4 ≤ 65536) && decide (1 ≤ leAt t 0x34 4)
      && decide (1 ≤ leAt t 0x38 4) && decide (leAt t 0x3C 1 ≤ 4) && within 1 8 sp && decide (leAt t 0x3E 2 < 60)
      && decide (leAt t 0x48 4 < 786432) && within 1 16 (leAt t 0x64 4) && decide (need ≤ leAt t 0x4C 4)
      && t.length == 112 + 8 * n + 8 * sp
      && (List.range n).all (fun k => decide (leAt (cls k) 0 1 < sp) && decide (leAt (cls k) 1 2 ≤ 4096))
      && (List.range sp).all (fun k => decide (leAt t (112 + 8 * n + 8 * k) 1 ≤ 12))
      && (!i.flag 1 || (sp == 1 && leAt t (112 + 8 * n) 1 == 12)))

/-- The snapshot manifest (R370): item numbers and lengths are equal in every body that has one (R371). -/
def manifestOk (i : Image) (b : Nat) : Bool :=
  let m := i.const b 5
  let items := manItems m
  (i.consts b 5).isEmpty ||
    (within 1 65536 (leAt m 0 4) && decide (64 + 32 * leAt m 0 4 ≤ m.length) && decide (leAt m 4 1 ≤ 1)
      && decide (leAt m 6 2 < 60) && decide (leAt m 8 4 < 786432) && distinct (items.map (fun x => x.item))
      && items.all (fun x => decide (x.die ≤ 4) && x.len % 32 == 0
        && decide (x.kind < 5) && (if x.kind = 3 then decide (x.tile < 60) && x.tile / 12 == x.die && decide (32 * x.off + x.len ≤ scratchEnd) else x.tile == 0)
        && (if x.kind = 0 then (i.params b).any (fun p => p.tensor == x.tensor && p.owner && p.die == x.die && 16 * p.elements == x.len)
            else x.tensor == 0))
      && i.bodies.all (fun c => (i.consts c 5).isEmpty ||
        (let other := manItems (i.const c 5)
         let lengths (l : List ManItem) : List (Nat × Nat) := l.map (fun x => (x.item, x.len))
         items.length == other.length && (lengths items).all (fun x => (lengths other).contains x))))

/-- Check 2 (R61). -/
def check2 (f : List Byte) (i : Image) : Bool :=
  frameOk f i && i.bodies.all (fun b =>
    countsOk i b && footprintOk i b && plansOk i b && programsOk i b
      && (i.programs b).all (fun p => sortedFrom ((records p.2).length + 1) 0 (records p.2))
      && slotsOk i b && stashPlanOk i b && distilOk i b && trainingOk i b && servingOk i b && screedOk_ i b && conduitOk i b
      && manifestOk i b)

/-! ### Check 3: Reserved fields and encodings not assigned (R12, R119) -/

/-- Reserved bits of a transfer entry, and its mode (R361). -/
def transferRsv (w : Nat) : Bool := clear w 241 241 && clear w 115 0 && bitsOf w 240 239 != 3

/-- Reserved fields of a directory entry (R59, R179, R473). -/
def dirRsv (kind : Nat) (e : DirEnt) : Bool :=
  e.spare == 0 && e.tail == 0 &&
  (match e.type with
   | 1 | 2 => clear e.flags 7 6 && clear e.flags 31 14 && (serves kind || clear e.flags 13 8)
   | 10 => clear e.flags 31 4
   | _ => e.flags == 0)

/-- Reserved fields of a body's tables. -/
def tablesRsv (i : Image) (b : Nat) : Bool :=
  let d (t : Nat) : List Byte := i.data b t
  let ws (bs : List Byte) (off size n : Nat) (ok : Nat → Bool) : Bool := (recordsAt bs off size n).all ok
  let l := d 4
  let t := i.const b 3
  let sv := i.const b 4
  let nc := (shapeClasses (d 8)).length
  let man := i.const b 5
  allZero (slice (d 7) 4 12) && ws (d 7) 16 8 (leAt (d 7) 0 4) (fun w => clear w 58 56 && clear w 63 63 && bitsOf w 61 60 != 3)
    && allZero (slice (d 8) 4 12) && ws (d 8) 16 32 (leAt (d 8) 0 4) (fun w => clear w 249 248 && clear w 178 0)
    && allZero (slice (d 3) 4 12) && ws (d 3) 16 32 (leAt (d 3) 0 4) transferRsv
    && allZero (slice l 12 4) && ws l 16 16 (leAt l 4 4) (fun w => clear w 119 96 && clear w 63 0)
    && ws l (16 + 16 * leAt l 4 4) 32 (leAt l 0 4) transferRsv
    && (reservations l).all (fun w => clear w 50 48 && clear w 12 0)
    && allZero (slice (d 5) 8 8)
    && ws (d 5) 16 64 (leAt (d 5) 0 4) (fun w => clear w 432 416 && clear w 309 304 && clear w 207 0)
    && ws (d 5) (16 + 64 * leAt (d 5) 0 4) 32 (leAt (d 5) 4 4) (fun w => clear w 212 208 && clear w 97 0)
    && allZero (slice (d 6) 4 4) && ws (d 6) 8 16 (leAt (d 6) 0 4) (fun w => clear w 113 104 && clear w 41 0)
    && leAt (i.const b 1) 0x10 4 / 16 == 0 && allZero (slice (i.const b 1) 0x18 8)
    && allZero (slice (i.const b 6) 4 12)
    && ws (i.const b 6) 16 16 (leAt (i.const b 6) 0 4) (fun w => clear w 121 116 && clear w 75 0)
    && allZero (slice t 0x24 28) && ws t 64 32 (leAt t 0 4) (fun w => clear w 211 211 && clear w 209 200 && clear w 11 0)
    && ws t (selectorStart t) 16 (leAt t 4 2) (fun w => clear w 91 0)
    && ws t (selectorStart t + 16 * leAt t 4 2) 16 (leAt t 6 2) (fun w => clear w 118 96 && clear w 31 0)
    && allZero (slice sv 0x68 8) && (List.range nc).all (fun k => allZero (slice sv (112 + 8 * k + 3) 5))
    && (List.range (leAt sv 0x3D 1)).all (fun k => allZero (slice sv (112 + 8 * nc + 8 * k + 1) 7))
    && leAt man 5 1 == 0 && allZero (slice man 0x0C 4) && allZero (slice man 0x20 32)
    && ws man 64 32 (leAt man 0 4) (fun w => clear w 219 216 && clear w 87 0)

/-- The unit that an op class belongs to accepts it (R66). -/
def classOfUnit (unit cls : Nat) : Bool :=
  match unit with
  | 0 | 1 => within 1 6 cls
  | 2 => cls == 0x10
  | 3 => within 0x20 0x24 cls
  | 4 => within 0x30 0x31 cls
  | 5 => within 0x40 0x45 cls
  | 6 => within 0x50 0x51 cls
  | 7 => cls == 0x60
  | 8 => within 0x70 0x72 cls
  | 9 => within 0x80 0x82 cls
  | _ => false

/-- Reserved fields of an issue record and the assignment of its descriptor (R64, R65, R119, R475). Classes that do not
belong to their unit are left to check 5. -/
def recordRsv (i : Image) (b module tile w : Nat) : Bool :=
  let unit := bitsOf w 95 92
  let cls := bitsOf w 91 84
  let d : Desc := BitVec.ofNat 48 w
  if unit = 15 then clear w 63 48 && clear w 7 0
  else
    clear w 78 72 && (decide (unit < 10)) && (!classOfUnit unit cls ||
      (descOk tile cls d &&
        (unit != 9 ||
          ((match (syncDecls (i.data b 7))[fld d 47 34]? with
            | some x => cls == 0x82 || x.counter || fld d 33 20 == 1
            | none => true)
           && (cls != 0x82 || (fld d 16 7 != module && (boundOf (i.data b 4) (fld d 6 1)).isSome))))))

/-- Check 3 (R61). -/
def check3 (s : State) (f : List Byte) (i : Image) : Bool :=
  bitsOf (i.field 8 4) 31 4 == 0 && bitsOf (i.field 0x89 1) 7 5 == 0 && allZero (i.header.drop 0x8A)
    && (dirOf f).all (dirRsv i.kind)
    && (match signatureOf f with | some g => leAt f (g.off + 4) 4 == 0 | none => true)
    && i.bodies.all (fun b => tablesRsv i b
      && (i.programs b).all (fun p => (records p.2).all (recordRsv i b s.moduleNumber p.1)))

/-! ### Checks 4 to 7 -/

/-- Check 4 (R61): the sequence bound, the class bounds, the number of classes. -/
def check4 (i : Image) : Bool :=
  within 1 262144 (i.field 0x18 4)
    && (if serves i.kind then within 1 64 (i.field 0x88 1) else i.field 0x88 1 == 0)
    && i.bodies.all (fun b => (shapeClasses (i.data b 8)).all (fun c => decide (c.prompt ≤ 262144) && decide (c.position ≤ 262144)))

/-- Repeats of a list of records are within their ranges and their spans (R65); `depth` repeats may still nest. -/
def repeatsOk : Nat → Nat → List Nat → Bool
  | 0, _, _ => false
  | _ + 1, _, [] => true
  | fuel + 1, depth, w :: rest =>
    if bitsOf w 95 92 = 15 then
      let span := bitsOf w 19 8
      decide (1 ≤ bitsOf w 91 64) && decide (1 ≤ span) && decide (span ≤ rest.length) && decide (0 < depth)
        && repeatsOk fuel (depth - 1) (rest.take span) && repeatsOk fuel depth (rest.drop span)
    else repeatsOk fuel depth rest

/-- A program passes check 5: units and cycles, classes, entries, objects (R61, R65, R66). -/
def programOk (i : Image) (b tile : Nat) (ws : List Nat) : Bool :=
  let l := unroll 5 (2 * ws.length + 8) 0 (ws.zipIdx.map (fun e => (e.2, e.1)))
  let named (lath : Bool) (e : Nat) : Bool := (tEntries lath (i.data b (if lath then 4 else 3))).any (fun x => x.entry == e)
  ws.all (fun w =>
      let unit := bitsOf w 95 92
      let d : Desc := BitVec.ofNat 48 w
      unit == 15 || (classOfUnit unit (bitsOf w 91 84) &&
        (match unit with
         | 6 => named false (fld d 47 35)
         | 7 => named true (fld d 47 35)
         | 8 => (sendEntries (i.data b 5)).any (fun x => x.tile == tile && x.send == fld d 27 14)
         | 9 => bitsOf w 91 84 == 0x82 || decide (fld d 47 34 < leAt (i.data b 7) 0 4)
         | _ => true)))
    && repeatsOk (2 * ws.length + 8) 4 ws && distinct (l.map (fun x => (x.1, x.2.1)))

/-- Check 5 (R61, R251, R344, R361). -/
def check5 (i : Image) : Bool :=
  i.bodies.all (fun b =>
    let l := i.data b 4
    let ts := tEntries false (i.data b 3) ++ (if i.flag 2 then tEntries true l else [])
    (i.programs b).all (fun p => programOk i b p.1 (records p.2))
      && (reservations l).all (fun w => bitsOf w 57 51 != 0 && !(bitsOf w 57 51 == 80 && bitsOf w 34 13 % 64 == 63))
      && ts.all (fun e => match e.mode with
        | 1 => !e.receive && within 1 4096 e.count && e.values != 0 && e.units == ceilDiv e.count 4
        | 2 => e.receive
        | _ => true)
      && (sendEntries (i.data b 5)).all (fun x =>
        (bucketEntries (i.data b 5)).all (fun k => k.bucket != x.bucket || k.homed || (boundOf l x.link).isSome)))

/-- Bytes of an entry's working copy (R117, R230). -/
def copyBytes (p : ParamEntry) : Nat := if p.vector then 4 * p.elements else ceilDiv p.elements 15360 * 15840

/-- Check 6: no tied weights (R231). -/
def check6 (i : Image) : Bool :=
  i.bodies.all (fun b =>
    let ps := i.params b
    disjointBy (ps.map (fun p => (p.tensor, p.first, p.elements)))
      && disjointBy (ps.flatMap (fun p =>
        (2 * p.die, p.copy, ceilDiv (copyBytes p) 32)
          :: (if p.owner then [(2 * p.die + 1, p.setX, p.elements / 2), (2 * p.die + 1, p.setY, p.elements / 2)] else []))))

/-- Check 7: no scheduled Lath slots in local time (R42). -/
def check7 (s : State) (i : Image) : Bool := !(i.flag 2 && s.plumb.state == .localTime)

/-! ### Checks 8 to 10, of the body to run (R61, R62, R320, R385) -/

/-- The body that runs: the primary, or the alternate for the lost die (R62). -/
def State.bodyToRun (s : State) : Nat := match s.lostDies with | d :: _ => d + 1 | [] => 0

/-- A die's tile 0–11 in a slice. -/
def sliceTiles (p : Part) (die : Nat) : List Nat := ((List.range 12).map (fun t => 12 * die + t)).filter (bitOf p.tiles)

/-- Check 8: the body is present; footprints, student parameters and tiles fit (R3, R25, R58, R174, R320). -/
def check8 (s : State) (p : Part) (i : Image) (b : Nat) : Bool :=
  i.bodies.contains b
    && (List.range 5).all (fun die => decide (i.footprint b die false ≤ 4 * stackBytes s.variantB)
      && decide (i.footprint b die true ≤ 4 * packageBytes)
      && decide (((i.tiles b).filter (fun t => t / 12 == die)).length ≤ (sliceTiles p die).length))
    && fitsWindows p i b && decide (i.studentParams b ≤ 16000000000)

/-- Sync objects in use on the module (R73). -/
def State.syncUsed (s : State) : Nat :=
  s.jobs.foldl (fun n e => n + (match s.jobImage e.2 with | some i => i.field 0x1C 4 | none => 0)) 0

/-- Check 9: enough of the 16,384 sync objects are free (R73). -/
def check9 (s : State) (i : Image) : Bool := decide (i.field 0x1C 4 + s.syncUsed ≤ 16384)

/-- A tile has a fenced array (R130, R131). -/
def State.fencedTile (s : State) (t : Nat) : Bool :=
  bitOf (SMap.getD 0 s.store.repair (2 * t)) 101 || bitOf (SMap.getD 0 s.store.repair (2 * t + 1)) 101

/-- Check 10: an alternate program for every program of a die on which a tile of the slice has a fenced array (R78,
R320). -/
def check10 (s : State) (p : Part) (i : Image) (b : Nat) : Bool :=
  (i.typed b 1).all (fun x =>
    !(sliceTiles p (x.flags % 64 / 12)).any s.fencedTile || (i.typed b 2).any (fun y => y.flags == x.flags))

/-- Every check of IMAGE_LOAD in order: the status and the number of the first that fails, 0 and 0 where none does
(R61). -/
def verdict (s : State) (pid : Nat) (f : List Byte) : Nat × Nat :=
  let i := imageOf pid f
  let p := s.part pid
  if !check1 s pid f then (0x20, 1)
  else if !check2 f i then (0x11, 2)
  else if !check3 s f i then (0x11, 3)
  else if !check4 i then (0x11, 4)
  else if !check5 i then (0x11, 5)
  else if !check6 i then (0x11, 6)
  else if !check7 s i then (0x20, 7)
  else if !check8 s p i s.bodyToRun then (0x12, 8)
  else if !check9 s i then (0x12, 9)
  else if !check10 s p i s.bodyToRun then (0x12, 10)
  else (0, 0)

/-- A job can be re-mapped to the alternate body for a lost die (R385), whose sync objects are those it has (R73); that its latest snapshot's items can all be found
is asked of the catalogue beside this. -/
def remapBody (s : State) (j : Job) (die : Nat) : Option Nat :=
  match s.jobImage j with
  | none => none
  | some i =>
    let b := die + 1
    let p := s.part j.part
    let l := i.data b 4
    let same := lathLinks l == lathLinks (i.data j.body 4) && tEntries true l == tEntries true (i.data j.body 4)
    if j.body = 0 ∧ i.bodies.contains b ∧ (i.consts b 5).length = 1 ∧ check8 s p i b ∧ s.syncUsed ≤ 16384 ∧ check10 s p i b
        ∧ (!i.flag 2 || (same && (lathLinks l).all (fun e => e.1 / 12 != die))) = true then some b
    else none

end Sys2Proof.Machine
end

