-- ==== Sys2Proof/Machine/Clock.lean ====
section
/-!
DEFINITION. Sys2Proof/Machine/Clock.lean: what takes effect at a frame boundary (R50): link losses, the governor's trip,
emergency quiesces and die losses; and the clock as every command moves it.
-/
namespace Sys2Proof.Machine

/-! ### Links -/

/-- Cycles in a second: 65,536 cycles take 26.2144 µs (R51). -/
def second : Nat := 2500000000

/-- The time class of a trained link (R46). Own LOCAL with a partner that is UNLOCKED, ACQUIRING or FENCED meets two rows of the
table: the model takes that of LOCAL, foreign time (log 80). -/
def classOf (own partner : PlumbState) (agrees : Bool) : TimeClass :=
  match own, partner with
  | .localTime, _ | _, .localTime => .foreign
  | _, .unlocked | _, .acquiring | _, .fenced => .pending
  | .unlocked, _ | .acquiring, _ | .fenced, _ => .pending
  | _, _ => if agrees then .common else .foreign

/-- A partner's frame number agrees with this module's count (R46). -/
def frameAgrees (delay : Nat) (p : PartnerTime) : Bool := frameOf (p.at_ - delay + 32768) == p.frame

/-- A link's class evaluated again (R47); a change to foreign time is recorded. -/
def reclassLink (s : State) (link : Nat) : State :=
  let l := s.link link
  match l.partner with
  | some p =>
    if l.up then
      let c := classOf s.plumb.state p.state (frameAgrees l.delay p)
      let s1 := s.updLink link (fun x => { x with timeClass := c })
      if c = .foreign ∧ l.timeClass ≠ .foreign then { s1 with log := s1.log ++ [.timeClass s.now link c.code] } else s1
    else s
  | none => s

/-- Every link's class evaluated again (R47). -/
def reclass (s : State) : State := s.links.foldl (fun (st : State) e => reclassLink st e.1) s

/-- A link trains again (R350, R366). -/
def retrainLink (s : State) (link : Nat) : State := (leaveLink s link).updLink link (fun l => l.retrain s.now)

/-- A link may train: the start has reached P6 (R432), the die that carries it is in service (R20, R23), and its plug, if one is
seated, has power (R469). -/
def mayTrain (s : State) (link : Nat) : Bool :=
  let l := s.link link
  (decide (60 ≤ link) || s.dieUp (link / 12)) && (match s.start.stage with | .running | .service => true | .phase n => decide (6 ≤ n) | _ => false)
    && (l.plugPower.isNone || l.plugPowered)

/-- Lanes in a mask. -/
def laneCount (m : Nat) : Nat := ((List.range 4).filter (bitOf m)).length

/-- LINK_RETRAIN's retrain (R350, R366, R367): of a link that may train, a trained one trains again, and so does a DOWN or DISABLED one
that has signal on two lanes (log 81). -/
def forceRetrain (s : State) (link : Nat) : State :=
  if mayTrain s link && ((s.link link).up || (s.link link).state == .training || decide (2 ≤ laneCount (s.link link).signal))
    then retrainLink s link else s

/-- One link's part of a LINK_RETRAIN action (R367): 0 retrain, 1 disable, 2 enable, 3 limit and retrain. -/
def linkAction (s : State) (action limit link : Nat) : State :=
  match action with
  | 0 => forceRetrain s link
  | 1 => (leaveLink s link).updLink link (fun l => { l.drop .disabled s.now with signal := l.signal })
  | 2 => (leaveLink s link).updLink link (fun l => { l.drop .down s.now with signal := l.signal })
  | _ => forceRetrain (s.updLink link (fun l => { l with limit := limit })) link

/-! ### Losing a die (R383 to R387) -/

/-- A context touches a die: its binding or its footprint does (R384). -/
def touches (s : State) (j : Job) (die : Nat) : Bool :=
  j.binding.any (fun b => b.2 / 12 == die) ||
  (match s.jobImage j with
   | some i => i.footprint j.body die false != 0 || i.footprint j.body die true != 0
   | none => false)

/-- The latest complete snapshot of a job in the catalogue. -/
def lastSnapshot (s : State) (jid : Nat) (j : Job) : Option CatEntry :=
  firstMin (fun a b => decide (b.number ≤ a.number))
    (s.catalogue.filter (fun e => e.part == j.part && e.job == jid && !e.checkpoint))

/-- Every item of a body can be found for a restore from a snapshot (R385, R389): here, or with a place of every part on a buddy, where
it is counted on unless it is marked lost, and the frozen items here. -/
def findable (s : State) (jid : Nat) (j : Job) (e : CatEntry) : Bool :=
  let parts := (e.places.map (fun h => h.part)).eraseDups
  (parts.all (fun p => e.places.any (fun h => h.part == p && h.remote && !h.lost))
      && ((manItems (s.manifest j)).filter (fun m => m.kind == 4)).all (fun m => (frozenItem s j e m).isSome))
    || (restoreItems s jid j e []).1.isNone

/-- A capture has a source or a holder on a die (R378). -/
def captureNeeds (s : State) (j : Job) (die : Nat) : Bool :=
  j.capture.isSome && (partsOf (s.manifest j)).any (fun p => p == die || (holdersOf s j p).any (fun h => !h.remote && h.holder == die))

/-- A fence of one job by a die's loss: REMAPPING where R385 allows, else HALTED. -/
def loseContext (s : State) (jid die at_ : Nat) : State :=
  match s.job jid with
  | none => s
  | some j =>
    if j.mode = .halted then s
    else
      let alt := (remapBody s j die).filter (fun b =>
        match lastSnapshot s jid j with
        | some e => findable s jid { j with body := b } e
        | none => false)
      match alt, lastSnapshot s jid j with
      | some _, some e => (fenceOne s jid at_ .remapping).updJob jid (fun x => { x with restoring := some (j.part, e.job, e.number, false) })
      | _, _ => fenceOne s jid at_ .halted

/-- A die's loss takes effect (R23, R384): four-die operation begins, its twelve Lath links carry nothing, contexts that touch the die are fenced, places it held
are lost. -/
def loseDie (s : State) (die at_ : Nat) : State :=
  let captures := s.jobs.filter (fun e => captureNeeds s e.2 die)
  let s1 : State := { s with
    lostDies := s.lostDies ++ [die]
    catalogue := s.catalogue.map (fun e => { e with places := e.places.map (fun h =>
      { h with lost := h.lost || (!h.remote && h.holder == die) }) }) }
  let sL := ((List.range 12).map (fun i => 12 * die + i)).foldl (fun (st : State) l =>
    if (st.link l).state = .disabled then st else (leaveLink st l).updLink l (fun x => x.drop .down at_)) s1
  let hit (w : Switch) : Bool := match s.job w.incoming with | some j => touches s j die | none => true
  let s1b := (sL.switches.filter hit).foldl dropSwitch sL
  let s2 := captures.foldl (fun (st : State) e => discardCapture st e.1) s1b
  s2.jobs.foldl (fun (st : State) e => if touches s e.2 die then loseContext st e.1 die at_ else st) s2

/-- A compute die is declared lost at the clock's cycle (R383, R384, R387): in effect at the next frame, where a second loss fails the
module. -/
def declareLoss (s : State) (die cause : Nat) : State :=
  let coming := s.acts.any (fun a => match a.2 with | .loss _ => true | .fail => true | _ => false)
  if s.dieUp die && !s.acts.any (fun a => a.2 == .loss die) && !s.failed then
    let s1 : State := { s with lossAt := some s.now, log := s.log ++ [.dieLost s.now die cause] }
    let s2 := s1.plan (nextFrame s1.now) (.loss die)
    if s1.lostDies.isEmpty && !coming then s2 else s2.plan (nextFrame s1.now) .fail
  else s

/-- The module has FAILED (R387). -/
def failModule (s : State) (at_ : Nat) : State :=
  let s1 := s.jobs.foldl (fun (st : State) e => fenceOne st e.1 at_ .halted) s
  let s2 := s1.answer (fun c => c.opcode != 0x0901 && c.opcode != 0x0A01 && c.opcode != 0x0B01)
    (fun _ => { status := stDeviceFault, stamp := at_ })
  { s2 with
    failed := true, quiescing := true, switches := []
    jobs := s2.jobs.map (fun e => (e.1, { e.2 with mode := .halted, restoring := none }))
    links := s2.links.map (fun e => (e.1, { e.2 with sched := [], lossQ := [] })) }

/-! ### What a job's beginning zeroes (R244, R254) -/

/-- The buckets of a body that this module homes. -/
def homedBuckets (i : Image) (body : Nat) : List BucketEntry := (bucketEntries (i.data body 5)).filter (fun b => b.homed)

/-- A range of a job's tier-1 window on a die zeroed. -/
def zeroTier1 (s : State) (j : Job) (die off n : Nat) : State :=
  match (s.part j.part).windowAddr die false off n with
  | some a => { s with tier1 := SMap.upd [] s.tier1 die (fun m => Mem.zero m a n) }
  | none => s

/-- Zero in every accumulator of a job (R244). -/
def zeroAccums (s : State) (j : Job) : State :=
  match s.jobImage j with
  | none => s
  | some i => (homedBuckets i j.body).foldl (fun (st : State) b => zeroTier1 st j b.die (32 * b.acc) (8 * b.elements)) s

/-- Both buffers of every residual store zeroed, with no exponent (R254). -/
def zeroResiduals (s : State) (j : Job) : State :=
  ((sendEntries (s.jobSection j 5)).filter (fun e => e.mode != 0)).foldl (fun (st : State) e =>
    [0, 1].foldl (fun (x : State) b =>
      (zeroTier1 x j (e.tile / 12) (bufferAt e b) (32 + 4 * e.elements)).writeWindow j (e.tile / 12) false (bufferAt e b)
        (residHeader 0x80 0 false)) st) s

/-! ### Frame boundaries (R50) -/

/-- JOB_START without a snapshot writes the history words of every selector (R226). -/
def initTiles (s : State) (j : Job) : State :=
  (selectors (s.jobConstant j 3)).foldl (fun (st : State) x =>
    storeAtImage st j x.tile x.block ((List.range 32).flatMap (fun _ => leBytes 4 0x80))) s

/-- A context takes its tiles at a stamp, its next step due there where nothing else holds it (R319, R326, R332, R421): a
serving job's lead module has first to plan it (R76). -/
def takeTiles (s : State) (jid : Nat) (binding : SMap Nat) (at_ : Nat) : State :=
  match s.job jid with
  | none => s
  | some j =>
    let first := max at_ (65536 * j.firstFrame)
    let due := if j.mode == .running && j.ready && s.dataPlane && (j.serve.isNone || j.replayRun.isSome || !s.leads j) then some first
    else none
    let s1 := seat s jid binding due
    if j.everResident then s1
    else match s1.job jid with | some k => initTiles s1 k | none => s1

/-- The mean of the last 1,000 power samples lies above a number of mW (R459). -/
def Power.meanAbove (p : Power) (milliwatts : Nat) : Bool :=
  decide (milliwatts * max 1 (p.samples.take 1000).length < (p.samples.take 1000).foldl (fun a b => a + b) 0)

/-- The mean of the last 1,000 power samples, in whole mW, as the module area records it (R459, R462). -/
def powerMean (p : Power) : Nat := (p.samples.take 1000).foldl (fun a b => a + b) 0 / max 1 (p.samples.take 1000).length

/-- The late commit of a sealed shadow (R392). -/
def lateCommit (s : State) (jid at_ : Nat) : State :=
  let s1 := s.updJob jid (fun j => { j with selector := !j.selector, u := (j.u + 1) % 2 ^ 48, sealed := false })
  { s1 with log := s1.log ++ [.lateCommit at_ jid] }

/-- What an action planned for a frame boundary does there. -/
def applyAct (s : State) (t : Nat) : FrameAct → State
  | .trip =>
    let s1 := fencePlane s t
    { s1 with power := { s1.power with tripped := true }
              log := s1.log ++ [.governor t 3 0 (powerMean s1.power)] }
  | .emergency =>
    let s1 := fencePlane s t
    let s2 := s1.answer (fun c => c.opcode != 0x0B01) (fun _ => { status := stDeviceFault, stamp := t })
    { s2 with quiesce := .closing, quiescing := true }
  | .quiescing => { s with quiescing := true }
  | .loss die => loseDie s die t
  | .fail => failModule s t
  | .linkDown link =>
    if (s.link link).state = .disabled then s else (leaveLink s link).updLink link (fun x => x.drop .down t)
  | .fence jid =>
    match s.job jid with
    | some j => if j.stop.isSome && j.run.isNone then fenceJob s jid else s
    | none => settleParts s
  | .parts => settleParts s
  | .zero jid residuals =>
    match s.job jid with
    | some j => if residuals then zeroResiduals (zeroAccums s j) j else zeroAccums s j
    | none => s
  | .take jid =>
    match s.switches.find? (fun w => w.incoming == jid) with
    | some w => takeTiles { s with switches := s.switches.filter (fun x => x.incoming != jid) } jid w.binding t
    | none => s
  | .lateCommit jid => lateCommit s jid t
  | .counts jid die off len bs =>
    match s.job jid with
    | some j => (zeroTier1 s j die off len).writeWindow j die false off bs
    | none => s
  | .access index mask key =>
    { s with store := { s.store with
        access := if mask = 0 then SMap.erase s.store.access index else SMap.set s.store.access index { mask := mask, key := key } } }
  | .links mask action limit id =>
    let s1 := ((List.range 64).filter (bitOf mask)).foldl (fun (st : State) l => linkAction st action limit l) s
    s1.answer (fun c => c.id == id) (fun _ => { status := stOk, stamp := t })
  | .routes first entries id =>
    let s1 : State := { s with routes := entries.zipIdx.foldl (fun (m : SMap Route) e =>
      SMap.set m (first + e.2) { valid := bitOf e.1 31, altValid := bitOf e.1 30, hops := bitsOf e.1 21 18,
                                 primary := bitsOf e.1 11 6, alternate := bitsOf e.1 5 0 }) s.routes }
    { s1 with store := { s1.store with routes := s1.routes } }.answer (fun c => c.id == id) (fun _ => { status := stOk, stamp := t })

/-- The actions due by cycle `t` carried out, each at its boundary, before anything of that cycle (R50); at most `fuel` of
them. -/
def settleActs (t : Nat) : Nat → State → State
  | 0, s => s
  | fuel + 1, s =>
    match s.acts with
    | [] => s
    | (u, a) :: rest => if u ≤ t then settleActs t fuel (applyAct ({ s with acts := rest }.reach u) u a) else s

/-- Every action planned up to cycle `t` carried out. -/
def State.settle (s : State) (t : Nat) : State := settleActs t s.acts.length s

/-- The same where a cycle is named that is still to come. -/
def State.settleBy (s : State) (t : Option Nat) : State :=
  match t with
  | some u => if s.now ≤ u then s.settle u else s
  | none => s

/-- The clock moved on by some cycles: what is planned for a frame boundary by then, then everything that falls due. -/
def State.after (s : State) (dt : Nat) : State := (s.settle (s.now + dt)).advance (s.now + dt)

/-- The clock moved on by some cycles to the beginning of its cycle: nothing of that cycle itself has fallen due (R347). -/
def State.upon (s : State) (dt : Nat) : State := (s.settle (s.now + dt)).reach (s.now + dt)

/-! ### Issue commands -/

/-- One issue command: `dt` cycles after the command before it. The record's descriptor says what issues: of the rows that share
an op class, each issues what the descriptor names (log 66). A record that the tile's program does not hold at that cycle is issued by
no sequencer (R67): the clock moves, and nothing else (log 5). -/
def issue (s : State) (dt tile : Nat) (a : Arr) (cls : Nat) (r : IssueRec) : Host.Outcome State Fault Refusal :=
  if descOk tile cls r.desc && recOk r then
    if rangesOk cls r.desc then
      let u := s.after dt
      .next (if u.issuing tile a cls r then issueNow (u.passTo tile (r.index + 1)) tile a cls r else u)
    else .fault .beyondScratchpad
  else .refused .unassigned

end Sys2Proof.Machine
end

