-- ==== Sys2Proof/Machine/ArrayRows.lean ====
section
/-!
DEFINITION. Sys2Proof/Machine/ArrayRows.lean: the commands of units 0, 1 and 2 (R114 to R146).
-/
namespace Sys2Proof.Machine

/-- ARRAY_WEIGHT_LOAD (R120): Class 0x01 loads an S8 weight group into a weight set. -/
def execArrayWeightLoad (dt tile : Nat) (a : Arr) (r : IssueRec) (s : State) : Host.Outcome State Fault Refusal :=
  issue s dt tile a 0x01 r

/-- ARRAY_WEIGHT_LOAD_EXPAND (R120): Class 0x02 loads an INT4 weight group with codebook or zero-point expansion. -/
def execArrayWeightLoadExpand (dt tile : Nat) (a : Arr) (r : IssueRec) (s : State) : Host.Outcome State Fault Refusal :=
  issue s dt tile a 0x02 r

/-- ACTIVATION_PLAIN (R121): Class 0x03 broadcasts an activation line and accumulates into the 40-bit slots. -/
def execActivationPlain (dt tile : Nat) (a : Arr) (r : IssueRec) (s : State) : Host.Outcome State Fault Refusal :=
  issue s dt tile a 0x03 r

/-- ACTIVATION_BLOCK_SCALED (R121): Class 0x04 accumulates a block-scaled term into the 64-bit slots. -/
def execActivationBlockScaled (dt tile : Nat) (a : Arr) (r : IssueRec) (s : State) : Host.Outcome State Fault Refusal :=
  issue s dt tile a 0x04 r

/-- DRAIN_REQUANTISE (R98): Class 0x05 drains an accumulator row with bias, shift and saturation to S8 or S16. -/
def execDrainRequantise (dt tile : Nat) (a : Arr) (r : IssueRec) (s : State) : Host.Outcome State Fault Refusal :=
  issue s dt tile a 0x05 r

/-- DRAIN_FP32_HOOK (R151): Class 0x06 drains a row to FP32 through a drain hook. -/
def execDrainFp32Hook (dt tile : Nat) (a : Arr) (r : IssueRec) (s : State) : Host.Outcome State Fault Refusal :=
  issue s dt tile a 0x06 r

/-- SKIM_ROW (R143): Class 0x10 fetches or reuses a weight segment and accumulates 8 sequence lanes into a Skim slot,
draining it if asked. -/
def execSkimRow (dt tile : Nat) (r : IssueRec) (s : State) : Host.Outcome State Fault Refusal :=
  issue s dt tile .hawk 0x10 r

end Sys2Proof.Machine
end

