-- ==== Sys2Proof/Machine/Repair.lean ====
section
/-!
DEFINITION. Sys2Proof/Machine/Repair.lean: the repair of the arrays and of the Skim units (R128 to R131, R146, R427): the records that
self-test writes, and where the contract columns and lanes lie on the physical ones.
-/
namespace Sys2Proof.Machine

/-! ### The records (R130, R131, R146, R427) -/

/-- The numbers below n whose bits are set. -/
def bitsBelow (n m : Nat) : List Nat := (List.range n).filter (bitOf m)

/-- The only lane of lanes 0 to 31 that is bad, where the spare is good (R129). -/
def laneReplaced (x : ArrayFound) : Option Nat :=
  match bitsBelow 32 x.badLanes with
  | [b] => if bitOf x.badLanes 32 then none else some b
  | _ => none

/-- The conditions that fence an array (R130, R214). -/
def fencesArray (x : ArrayFound) : Bool :=
  decide (32 < (bitsBelow 512 x.badColumns).length) || decide (1 < (bitsBelow 32 x.badLanes).length)
    || (bitsBelow 32 x.badLanes != [] && bitOf x.badLanes 32) || x.other

/-- The repair record of an array (R131), written at a stamp. Bad lane names the lane that the spare replaces, none where no lane is
replaced (log 87). -/
def repairRecord (x : ArrayFound) (stamp : Nat) : Nat :=
  packMsb [(512, x.badColumns), (8, x.array), (8, (laneReplaced x).getD 0xFF), (10, (bitsBelow 512 x.badColumns).length), (1, b2n (fencesArray x)),
    (1, b2n (laneReplaced x).isSome), (1, b2n (bitOf x.badLanes 32)), (35, 0), (64, stamp)]

/-- The column unit that the spare replaces: the only bad one, where it is not the spare (R146). -/
def unitReplaced (x : SkimFound) : Option Nat :=
  match bitsBelow 17 x.badUnits with
  | [b] => if b = 16 then none else some b
  | _ => none

/-- The conditions that fence a Skim unit (R146). -/
def fencesSkim (x : SkimFound) : Bool := decide (1 < (bitsBelow 17 x.badUnits).length) || x.other

/-- The Skim repair record of a tile (R427), written at a stamp. -/
def skimRecord (x : SkimFound) (stamp : Nat) : Nat :=
  packMsb [(64, stamp), (6, x.tile), (5, (unitReplaced x).getD 31), (1, b2n (fencesSkim x)), (1, b2n (unitReplaced x).isSome),
    (1, b2n (bitOf x.badUnits 16)), (5, (bitsBelow 17 x.badUnits).length), (45, 0)]

/-- What self-test found in an array, among its findings. -/
def foundIn (fs : List ArrayFound) (a : Nat) : ArrayFound := (fs.find? (fun x => x.array == a)).getD { array := a }

/-- What self-test found in a tile's Skim unit, among its findings. -/
def skimIn (fs : List SkimFound) (t : Nat) : SkimFound := (fs.find? (fun x => x.tile == t)).getD { tile := t }

/-! ### The maps (R128, R129) -/

/-- Bad physical columns of a repair record. -/
def badColumnsOf (record : Nat) : Nat := bitsOf record 639 128

/-- The good physical columns, in order. -/
def goodColumns (bad : Nat) : List Nat := (List.range 512).filter (fun p => !bitOf bad p)

/-- The physical columns that the contract columns lie on: contract column j on the (j + 1)-th good one (R128). -/
def columnMap (bad : Nat) : List Nat := (goodColumns bad).take 480

/-- The contract column that lies on a physical column; none for a bad or unused one, which is gated (R128). -/
def contractColumn (bad p : Nat) : Option Nat :=
  if (columnMap bad).contains p then some ((columnMap bad).idxOf p) else none

/-- The physical lane of a contract lane, with a bad lane or none (R129). -/
def physicalLane (bad : Option Nat) (i : Nat) : Nat :=
  match bad with
  | some b => if i < b then i else i + 1
  | none => i

/-- A contract line spread over the 33 physical lanes: none for the lane that is bad or unused, which is gated (R129, R133). -/
def spreadLanes (bad : Option Nat) (line : List Int) : List (Option Int) :=
  (List.range 33).map (fun p => (((List.range 32).find? (fun i => physicalLane bad i == p))).map (fun i => line.getD i 0))

/-- The exact sum of the products of the physical lanes; a gated lane's product enters as zero (R129, R133). -/
def physicalSum (a w : List (Option Int)) : Int :=
  (List.zipWith (fun x y => match x, y with | some u, some v => u * v | _, _ => 0) a w).foldl (fun s v => s + v) 0

/-- What the physical columns of an array hold of a weight set: the weights of their contract column, spread over the lanes, and its
scale; none where the column is bad or unused (R128, R129). -/
def ArrayState.physical (x : ArrayState) (bad : Nat) (lane : Option Nat) (set : Nat) : List (Option (List (Option Int) × Nat)) :=
  (List.range 512).map (fun p => (contractColumn bad p).map (fun j =>
    (spreadLanes lane (x.wcol set j).w, (x.wcol set j).scale)))

end Sys2Proof.Machine
end

