-- ==== Sys2Proof/Machine/FabricRows.lean ====
section
/-!
DEFINITION. Sys2Proof/Machine/FabricRows.lean: the meanings of the Lath commands: send points, flits received, resends,
training and plugs (R342 to R369). A command whose event cannot arise in the state changes only the clock
(log 5).
-/
namespace Sys2Proof.Machine

/-! ### Shared operations -/

/-- A received flit of one type, in time for what its cycle brings (R347: a window ends at its delivery cycle): its Ack, Nak and
sequence taken, the hello exchange settled by its Ack, then `k` where it is new. -/
def receive (s : State) (dt link type : Nat) (f : Flit) (k : State → State) : State :=
  let s1 := s.upon dt
  if f.type = type then
    let r := rxFlit s1 link f
    let s2 := if r.2 then k r.1 else r.1
    settleHello s2 link
  else s1

/-! ### Sending -/

/-- SEND_POINT (R345): at a send point of the link. -/
def execSendPoint (dt link : Nat) (s : State) : Host.Outcome State Fault Refusal :=
  .next (sendPoint (s.after dt) link)

/-- TIMING_FLIT_SEND (R344): at the timing point of the frame, on a link that is ACTIVE (R349). -/
def execTimingFlitSend (dt link : Nat) (s : State) : Host.Outcome State Fault Refusal :=
  let s1 := s.after dt
  let t := frameOf s1.now * 65536 + 63 * 1024 + 960
  if (s1.link link).state == .active && decide (s1.now ≤ t) then
    let s2 := (s1.settle t).advance t
    .next (s2.updLink link (fun l =>
      let f := timingFlit s2 (frameOf s2.now + 1)
      { (stampFlit l f).1 with out := some (stampFlit l f).2 }))
  else .next s1

/-- RESEND_TIMEOUT (R346): a flit has waited 2D + 256 cycles for its Ack. -/
def execResendTimeout (dt link seq : Nat) (s : State) : Host.Outcome State Fault Refusal :=
  let s1 := s.after dt
  .next (s1.updLink link (fun l => timeoutFlit l seq s1.now))

/-! ### Receiving -/

/-- SCHEDULED_FLIT (R347). -/
def execScheduledFlit (dt link : Nat) (f : Flit) (s : State) : Host.Outcome State Fault Refusal :=
  .next (receive s dt link 1 f (fun st => if (st.link link).scheduled then landScheduled st link f (some f.payload) else st))

/-- BEST_EFFORT_FLIT (R359). -/
def execBestEffortFlit (dt link : Nat) (f : Flit) (s : State) : Host.Outcome State Fault Refusal :=
  .next (receive s dt link 2 f (fun st => if (st.link link).state = .active then routeFlit st link f else st))

/-- NOTICE_FLIT (R348), at the hub endpoint that it names (R356). -/
def execNoticeFlit (dt link : Nat) (f : Flit) (s : State) : Host.Outcome State Fault Refusal :=
  .next (receive s dt link 3 f (fun st =>
    if (st.link link).state = .active then
      if bitsOf f.dest 6 0 = 127 then (noticeRecords f).foldl landNotice st else misaddress st link
    else st))

/-- HELLO_FLIT (R353). -/
def execHelloFlit (dt link : Nat) (f : Flit) (s : State) : Host.Outcome State Fault Refusal :=
  .next (receive s dt link 5 f (fun st => landHello st link f))

/-- LOSS_FLIT (R347). -/
def execLossFlit (dt link : Nat) (f : Flit) (s : State) : Host.Outcome State Fault Refusal :=
  .next (receive s dt link 6 f (fun st => if (st.link link).scheduled then landScheduled st link f none else st))

/-- SYNC_FLIT (R342, R475): its arrive counts at its stamp. -/
def execSyncFlit (dt link : Nat) (f : Flit) (s : State) : Host.Outcome State Fault Refusal :=
  .next (receive s dt link 7 f (fun st => if (st.link link).scheduled then landSync st link f else st))

/-- IDLE_FLIT (R345): only its Ack and Nak count. -/
def execIdleFlit (dt link : Nat) (f : Flit) (s : State) : Host.Outcome State Fault Refusal :=
  .next (receive s dt link 0 f (fun st => st))

/-- FAILING_FLIT (R342, R366). -/
def execFailingFlit (dt : Nat) (f : BadFlit) (s : State) : Host.Outcome State Fault Refusal :=
  let s1 := s.after dt
  .next (s1.updLink f.link (fun l => if l.up then failFlit l f.crc (frameOf s1.now) else l))

/-! ### Training and plugs -/

/-- LINK_SIGNAL_DETECT (R350): `lanes` have had signal for 100 ms. -/
def execLinkSignalDetect (dt link lanes : Nat) (s : State) : Host.Outcome State Fault Refusal :=
  let s1 := s.after dt
  let l := s1.link link
  if l.state == .down && !l.ladderFailed && decide (2 ≤ laneCount lanes) && mayTrain s1 link then
    .next (s1.updLink link (fun x => { x with signal := lanes % 16 }.retrain s1.now))
  else .next s1

/-- TRAINING_COMPLETE (R350, R351): within 500 ms of the attempt's start. -/
def execTrainingComplete (dt link : Nat) (t : TrainReport) (s : State) : Host.Outcome State Fault Refusal :=
  let s1 := s.after dt
  let l := s1.link link
  if l.state == .training && !l.waiting && mayTrain s1 link && decide (s1.now ≤ l.since + second / 2) then
    let k := commonRung l t.rung
    let w := rungWidth l k
    let p : PartnerTime := { frame := t.frame, hop := t.hop, state := plumbOf t.state, deadline := 0, at_ := s1.now }
    .next (reclassLink (s1.updLink link (fun x => { x with
      state := .hello, rung := k, width := w.1, rate112 := w.2.1, lanes := w.2.2, delay := t.delay,
      partner := some p, since := s1.now })) link)
  else .next s1

/-- TRAINING_ATTEMPT_FAIL (R350): 500 ms after the attempt's start. `lanes` are those found bad. -/
def execTrainingAttemptFail (dt link lanes : Nat) (s : State) : Host.Outcome State Fault Refusal :=
  let s1 := s.after dt
  let l := s1.link link
  if l.state == .training && !l.waiting && decide (s1.now ≤ l.since + second / 2) then
    let s2 := (s1.settle (l.since + second / 2)).advance (l.since + second / 2)
    .next (s2.updLink link (fun x =>
      let y := { x with excluded := x.excluded ||| lanes % 16, since := s2.now }
      match nextRung y (x.rung + 1) with
      | some r => { y with rung := r, waiting := true }
      | none => { y with state := .down, ladderFailed := true }))
  else .next s1

/-- TRAINING_RUNG_RETRY (R350): 1 s after a failed attempt. -/
def execTrainingRungRetry (dt link : Nat) (s : State) : Host.Outcome State Fault Refusal :=
  let s1 := s.after dt
  let l := s1.link link
  if l.state == .training && l.waiting && mayTrain s1 link && decide (s1.now ≤ l.since + second) then
    let s2 := (s1.settle (l.since + second)).advance (l.since + second)
    .next (s2.updLink link (fun x => { x with waiting := false, since := s2.now }))
  else .next s1

/-- TRAINING_LADDER_RESTART (R350): 10 s after the last rung's failure, with signal still present. -/
def execTrainingLadderRestart (dt link : Nat) (s : State) : Host.Outcome State Fault Refusal :=
  let s1 := s.after dt
  let l := s1.link link
  if l.state == .down && l.ladderFailed && mayTrain s1 link && decide (2 ≤ laneCount l.signal) && decide (s1.now ≤ l.since + 10 * second) then
    let s2 := (s1.settle (l.since + 10 * second)).advance (l.since + 10 * second)
    .next (s2.updLink link (fun x => x.retrain s2.now))
  else .next s1

/-- LINK_SIGNAL_LOSS (R365): best-effort traffic leaves the link at once, and it enters DOWN at the next frame boundary. -/
def execLinkSignalLoss (dt link : Nat) (s : State) : Host.Outcome State Fault Refusal :=
  let s1 := s.after dt
  let l := s1.link link
  if l.state == .disabled then .next (s1.updLink link (fun x => { x with signal := 0 }))
  else
    .next ((s1.updLink link (fun x => { x with noSignal := true })).plan (nextFrame s1.now) (.linkDown link))

/-- PARTNER_RETRAIN (R366): the partner trains the link again, and this side with it. -/
def execPartnerRetrain (dt link : Nat) (s : State) : Host.Outcome State Fault Refusal :=
  let s1 := s.after dt
  if (s1.link link).up && mayTrain s1 link then .next (retrainLink s1 link) else .next s1

/-- A plug seated in a link's cage (R469): one above 6 W has no power, and its link is DOWN unless it is DISABLED. -/
def seatPlug (s : State) (link tenthWatts : Nat) : State :=
  let s1 := if 60 < tenthWatts ∧ (s.link link).state ≠ .disabled then (leaveLink s link).updLink link (fun l => l.drop .down s.now) else s
  s1.updLink link (fun l => { l with plugPower := some tenthWatts, plugPowered := decide (tenthWatts ≤ 60) })

/-- PLUG_PRESENT (R469): a plug of a CMIS power class, in tenths of a watt, is seated in a cage. -/
def execPlugPresent (dt cage tenthWatts : Nat) (s : State) : Host.Outcome State Fault Refusal :=
  let s1 := s.after dt
  if cage < 16 then .next ((List.range 4).foldl (fun (st : State) k => seatPlug st (4 * cage + k) tenthWatts) s1)
  else .next s1

end Sys2Proof.Machine
end

