-- ==== Sys2Proof/Machine/PlumbRows.lean ====
section
/-!
DEFINITION. Sys2Proof/Machine/PlumbRows.lean: the meanings of the time commands: frame words, timing flits, lock, holdover
and the fence (R26 to R47).
-/
namespace Sys2Proof.Machine

/-! ### Sources -/

/-- A time source's partner lets it be chosen (R30, R31): an ACTIVE link, since no other carries timing flits (R349, log 80),
not in foreign time, whose partner is LOCKED with a hop count of 13 or less. -/
def linkHop (s : State) (link : Nat) : Option Nat :=
  let l := s.link link
  match l.partner with
  | some p => if l.state == .active && l.timeClass != .foreign && p.state == .locked && decide (p.hop ≤ 13) then some p.hop else none
  | none => none

/-- The connector has delivered a frame word with a valid check in the last 4 frames (R31). -/
def connectorGood (s : State) : Bool :=
  match s.plumb.connector.lastAt with
  | some f => decide (frameOf (s.now + 32768) ≤ f + 4)
  | none => false

/-- The source that R31 selects, as PLUMB_STATUS numbers it: 64 the connector, else the link with the lowest hop count, then
the lowest number; none that R38 bars. -/
def selectSource (s : State) : Option Nat :=
  if connectorGood s && !s.plumb.barred.contains 64 then some 64
  else
    (firstMin (fun (a b : Nat × Nat) => decide (a.1 ≤ b.1))
      ((List.range 64).filterMap (fun l =>
        if s.plumb.barred.contains l then none else (linkHop s l).map (fun h => (h, l))))).map (fun x => x.2)

/-- The hop count of a module timed from a source (R30). -/
def hopFrom (s : State) (source : Nat) : Nat :=
  if source = 64 then 1 else min 15 ((((s.link source).partner.map (fun p => p.hop)).getD 15) + 1)

/-! ### The clock adopts a source's frame number (R35, R41) -/

/-- A stamp moved with the clock. -/
def moved (d : Int) (t : Nat) : Nat := ((t : Int) + d).toNat

/-- What a link keeps by the clock, moved with it. -/
def Link.shifted (d : Int) (l : Link) : Link :=
  { l with
    since := moved d l.since
    lostAt := l.lostAt.map (moved d)
    partner := l.partner.map (fun p => { p with at_ := moved d p.at_ })
    replay := l.replay.map (fun x => { x with sentAt := moved d x.sentAt })
    taken := []
    helloFrame := none }

/-- Timers of a job moved with the clock. -/
def Job.shifted (d : Int) (j : Job) : Job :=
  { j with
    intervalEnd := j.intervalEnd.map (moved d)
    blockedSince := j.blockedSince.map (moved d)
    waitingSince := j.waitingSince.map (moved d)
    placedAt := moved d j.placedAt }

/-- The clock moved by some frames, with every timer that runs by it, so that time still to pass stays the same. -/
def State.shiftFrames (s : State) (d : Int) : State :=
  let k := d * 65536
  let p := s.power
  let st := s.start
  { s with
    now := moved k s.now
    tickAt := none
    inflight := s.inflight.map (fun (o : Op) => { o with due := moved k o.due, issued := moved k o.issued })
    taken := []
    links := s.links.map (fun e => (e.1, e.2.shifted k))
    jobs := s.jobs.map (fun e => (e.1, e.2.shifted k))
    requests := s.requests.map (fun e => (e.1, { e.2 with lifeEnd := e.2.lifeEnd.map (moved k) }))
    acts := s.acts.map (fun a => (moved k a.1, a.2))
    power := { p with hotSince := p.hotSince.map (moved k), overSince := p.overSince.map (moved k), underSince := p.underSince.map (moved k) }
    start := { st with pressedAt := st.pressedAt.map (fun t => t + k), p0End := moved k st.p0End,
                       ends := st.ends.map (fun e => (e.1, moved k e.2)) }
    lossAt := s.lossAt.map (moved k) }

/-! ### Marks -/

/-- A good mark of a source, seen by a source's measures (R34 to R36): `own` is this module's number for the frame. A frame
without a mark breaks a row of far ones. -/
def TimeSource.see (x : TimeSource) (frame own : Nat) (err : Int) : TimeSource :=
  let follows := x.lastAt == some (own - 1) && frame == x.frame + 1
  { x with
    good := if err.natAbs ≤ 8 then (if follows then x.good + 1 else 1) else 0
    far := if 16 < err.natAbs then (if x.lastAt == some (own - 1) then x.far + 1 else 1) else 0
    frame := frame, lastAt := some own, err := err }

/-- The mark of the source in use while LOCKED (R36, R39). A source whose hop count rises to 14 is not a loss that R36 lists: it is
kept, and the module's own hop count is 15 (log 80). -/
def lockedMark (p : Plumb) (frame own : Nat) (err : Int) (partner : Option PartnerTime) : Plumb :=
  let x := p.src.see frame own err
  let gap := match p.src.lastAt with | some f => decide (f + 4 < own) | none => false
  let hop15 := match partner with | some q => q.hop == 15 | none => false
  let p1 := { p with src := x, losing := p.losing || decide (4 ≤ x.far) || gap || frame != own || hop15 }
  match partner with
  | some q =>
    if q.state == .holdover && !p1.losing then { p1 with state := .holdover, deadline := q.deadline, cand := 127 }
    else if hop15 then p1
    else { p1 with hop := min 15 (q.hop + 1) }
  | none => p1

/-- A mark with a valid check from a source (R31, R34 to R41). `own` is this module's number for the frame that the mark
begins. -/
def mark (s : State) (source frame own : Nat) (err : Int) (partner : Option PartnerTime) : State :=
  let p := s.plumb
  let chosen := selectSource s
  match p.state with
  | .unlocked | .fenced =>
    if chosen = some source then
      { s with plumb := { p with state := .acquiring, cand := source, src := ({} : TimeSource).see frame own err,
                                 wasFenced := p.wasFenced || p.state == .fenced } }
    else s
  | .acquiring =>
    if chosen = some source then
      let x := if p.cand = source then p.src else {}
      { s with plumb := { p with cand := source, src := x.see frame own err } }
    else s
  | .locked =>
    if p.source = source then { s with plumb := lockedMark p frame own err partner } else s
  | .holdover =>
    if p.source = source ∧ (partner.map (fun q => q.state)) = some .holdover then
      { s with plumb := { p with deadline := (partner.map (fun q => q.deadline)).getD p.deadline
                                 cand := if p.cand = source then 127 else p.cand } }
    else if chosen = some source then
      if frame = own ∧ err.natAbs ≤ 32 then
        let x := if p.cand = source then p.src else {}
        { s with plumb := { p with cand := source, src := x.see frame own err } }
      else { s with plumb := { p with barred := source :: p.barred, cand := if p.cand = source then 127 else p.cand } }
    else s
  | .localTime => s

/-- A frame word is valid: its sync and its check (R27). R28 binds the timing master: a number with bit 47 set is one number more,
which R31, R35 and R36 take as they take any. -/
def frameWordOk (w : BitVec 64) : Bool :=
  fld w 63 56 == 0xB4 && fld w 7 0 == crc8Frame (fld w 55 8)

/-- Plumb acquisition has begun: P7 or later, and no turn-off (R432). -/
def State.timed (s : State) : Bool :=
  match s.start.stage with | .running | .service => true | .phase n => decide (7 ≤ n) | _ => false

/-! ### The rows -/

/-- FRAME_WORD (R27): the reference edge after the word's last bit. -/
def execFrameWord (dt : Nat) (word : BitVec 64) (err : Int) (s : State) : Host.Outcome State Fault Refusal :=
  let s1 := s.after dt
  if frameWordOk word && s1.timed then
    let own := frameOf (s1.now + 32768)
    let s2 : State := { s1 with plumb := { s1.plumb with connector := s1.plumb.connector.see (fld word 55 8) own err } }
    .next (mark s2 64 (fld word 55 8) own err none)
  else .next s1

/-- TIMING_FLIT (R29, R34): its marking symbol, on a link that is ACTIVE (R349). The link's class is looked at again (R47). -/
def execTimingFlit (dt link : Nat) (f : Flit) (err : Int) (s : State) : Host.Outcome State Fault Refusal :=
  let s1 := s.after dt
  if f.type = 4 ∧ (s1.link link).state = .active then
    let s2 := (rxFlit s1 link f).1
    let hs := leAt f.payload 6 1
    let p : PartnerTime := { frame := leAt f.payload 0 6, hop := bitsOf hs 3 0, state := plumbOf (bitsOf hs 6 4),
                             deadline := leAt f.payload 8 6, at_ := s2.now }
    let s3 := reclassLink (s2.updLink link (fun l => { l with partner := some p })) link
    if s3.timed then
      .next (reclass (mark s3 link p.frame (frameOf (s3.now - (s3.link link).delay + 32768)) err (some p)))
    else .next s3
  else .next s1

/-- REFERENCE_ABSENT_TIMEOUT (R36): the reference has been absent for more than 1 µs. -/
def execReferenceAbsentTimeout (dt : Nat) (s : State) : Host.Outcome State Fault Refusal :=
  let s1 := s.after dt
  if s1.plumb.state = .locked then .next { s1 with plumb := { s1.plumb with losing := true } } else .next s1

/-- PLUMB_LOCK (R35, R41): 16 good consecutive frames. The frame counter takes the source's number. -/
def execPlumbLock (dt : Nat) (s : State) : Host.Outcome State Fault Refusal :=
  let s1 := s.after dt
  let p := s1.plumb
  if p.state = .acquiring ∧ 16 ≤ p.src.good then
    let own := p.src.lastAt.getD 0
    let before := frameOf s1.now
    let s2 := s1.shiftFrames ((p.src.frame : Int) - (own : Int))
    let s3 : State := { s2 with
      plumb := { s2.plumb with state := .locked, source := p.cand, hop := hopFrom s1 p.cand, deadline := 0, losing := false,
                               wasFenced := false, src := { p.src with far := 0, lastAt := some p.src.frame },
                               connector := { p.connector with lastAt := p.connector.lastAt.map (fun f =>
                                 moved ((p.src.frame : Int) - (own : Int)) f) } }
      log := if p.wasFenced then s2.log ++ [.relock s2.now before (frameOf s2.now)] else s2.log }
    .next (reclass { s3 with plumb := { s3.plumb with
      relocks := if p.wasFenced then s3.plumb.relocks ++ [(before, frameOf s3.now)] else s3.plumb.relocks } })
  else .next s1

/-- The source has sent nothing for 4 frames when the next begins (R36). -/
def silent (s : State) : Bool :=
  match s.plumb.src.lastAt with | some f => decide (f + 5 ≤ frameOf (nextFrame s.now)) | none => true

/-- HOLDOVER_ENTRY (R36, R37): at the next frame boundary after the source is lost. -/
def execHoldoverEntry (dt : Nat) (s : State) : Host.Outcome State Fault Refusal :=
  let s1 := s.after dt
  if s1.plumb.state = .locked ∧ (s1.plumb.losing || silent s1) = true then
    let s2 := (s1.settle (nextFrame s1.now)).reach (nextFrame s1.now)
    .next (reclass { s2 with plumb := { s2.plumb with
      state := .holdover, source := 127, cand := 127, losing := false, deadline := frameOf s2.now + 64 } })
  else .next s1

/-- HOLDOVER_RELOCK (R38): a source that agrees has been found and the phase error slewed within 2 cy. -/
def execHoldoverRelock (dt : Nat) (s : State) : Host.Outcome State Fault Refusal :=
  let s1 := s.after dt
  let p := s1.plumb
  if p.state = .holdover ∧ p.cand ≠ 127 ∧ selectSource s1 = some p.cand ∧ p.src.err.natAbs ≤ 16 ∧ s1.now < 65536 * p.deadline then
    .next (reclass { s1 with plumb := { p with state := .locked, source := p.cand, hop := hopFrom s1 p.cand, deadline := 0,
                                               losing := false, src := { p.src with far := 0 } } })
  else .next s1

/-- HOLDOVER_DEADLINE (R37, R40): frame f + 64 begins. -/
def execHoldoverDeadline (dt : Nat) (s : State) : Host.Outcome State Fault Refusal :=
  let s1 := s.after dt
  let g := 65536 * s1.plumb.deadline
  if s1.plumb.state = .holdover ∧ s1.now ≤ g then
    let s2 := (s1.settle g).reach g
    let s3 : State := { s2 with
      plumb := { s2.plumb with state := .fenced, source := 127, hop := 15, deadline := 0, cand := 127, barred := [], wasFenced := true,
                               lastFence := g }
      log := s2.log ++ [.fence g] }
    .next (reclass (fencePlane s3 g))
  else .next s1

end Sys2Proof.Machine
end

