-- ==== Sys2Proof/Machine/Power.lean ====
section
/-!
DEFINITION. Sys2Proof/Machine/Power.lean: shared operations of power, quiesce and start-up (R7, R23, R380, R404 to R408,
R431 to R442, R453, R454, R457).
-/
namespace Sys2Proof.Machine

/-! ### Quiesce (R453, R454) -/

/-- An emergency quiesce requested: it acts at the next frame boundary, and takes over from an orderly one. -/
def requestEmergency (s : State) : State :=
  match s.quiesce with
  | .none | .orderly => { s with quiesce := .emergency }.plan (nextFrame s.now) .emergency
  | _ => s

/-- An orderly quiesce requested: hellos say so from the next frame, and every job is withdrawn. -/
def requestOrderly (s : State) : State :=
  match s.quiesce with
  | .none =>
    let s1 := { s with quiesce := .orderly }.plan (nextFrame s.now) .quiescing
    s1.jobs.foldl (fun (st : State) e => withdraw st e.1 none false) s1
  | _ => s

/-- Every job of the module is fenced by its withdrawal. -/
def State.allFenced (s : State) : Bool :=
  s.jobs.all (fun e => match e.2.stop with | some x => x.reached | none => false)

/-- Steps 3 and 4 of a quiesce done (R453): the drive holds the catalogue copy and has been sent a shutdown notification, and requests
are answered. -/
def finishQuiesce (s : State) : State :=
  let s1 : State := { s with
    quiesce := .done
    drive := if s.drive.present then { s.drive with catalogue := s.catalogue, shutdown := true } else s.drive }
  s1.answer (fun c => c.opcode == 0x0B01) (fun _ => s1.reply stOk)

/-! ### Sensors (R381, R465) -/

/-- The regulator alarms that are active (R465), in the order of the list. -/
def activeAlarms (s : State) : List Bool :=
  let p := s.power
  [within 44000 45999 p.millivolts, within 58001 60000 p.millivolts, decide (450 < p.inlet), decide (600 < p.outlet),
   decide (p.flow < 4500), !p.resting.isEmpty, !p.stages.isEmpty, !p.rails.isEmpty]

/-- The alarms that are active, noted with a stamp for the health monitor (R381). -/
def State.noteAlarms (s : State) (t : Nat) : State :=
  { s with health := { s.health with
      alarms := (positions id (activeAlarms s)).foldl (fun (m : SMap Nat) a => SMap.set m a t) s.health.alarms } }

/-- Sensors report: the alarms that were active until now, and those that are from now on, are noted (R381). -/
def State.sense (s : State) (p : Power) : State :=
  if s.start.stage = .off then { s with power := p } else ({ s.noteAlarms s.now with power := p } : State).noteAlarms s.now

/-! ### Feed removal and turn-off (R7, R380, R431, R457) -/

/-- A link with nothing but what does not need power: its plug and the operator's limit (R367, R469). -/
def Link.unpowered (l : Link) : Link := { plugPower := l.plugPower, limit := l.limit }

/-- A partition's record as the hub store keeps it: whole, whatever dies were lost at the last start, and without prefix indexes
(R442). -/
def Part.stored (p : Part) : Part :=
  { p with tiles := (p.whole.map (fun w => w.1)).getD p.tiles, windows := (p.whole.map (fun w => w.2)).getD p.windows,
           whole := none, prefixes := [] }

/-- The partition records as the hub store keeps them (R442). -/
def storedParts (ps : SMap Part) : SMap Part :=
  (ps.filter (fun e => e.2.state != .free)).map (fun e => (e.1, e.2.stored))

/-- A quiesce as a start that begins again leaves it: it goes on, with nothing left to fence (R454). -/
def Quiesce.kept : Quiesce → Quiesce
  | .emergency => .closing
  | q => q

/-- Everything that rails turned off end or erase (R7, R380, R442). -/
def State.volatileOff (s : State) : State :=
  { s with
    inflight := [], acts := [], tickAt := none, taken := [], tiles := [], tier1 := [], tier2 := [], hub := [], ctls := []
    links := s.links.map (fun e => (e.1, e.2.unpowered))
    routes := [], parts := storedParts s.parts, images := [], jobs := [], plumb := {}
    lostDies := [], failed := false, lossAt := none, quiescing := s.quiesce != .none, quiesce := s.quiesce.kept,
    inbox := [], messages := []
    wins := [], cmds := [], passed := none, regs := [], conns := [], connSeq := 0
    requests := [], budgets := [], admissions := 0, health := {}
    drive := { s.drive with present := false }
    switches := [], switchLog := [], log := [], kept := [], clearing := [], fills := [] }

/-- A finished start entered in the start log, which keeps the last 64 (R438). -/
def logStart (s : State) (outcome : Nat) : State :=
  let l := s.store.log ++ [{ cold := s.start.cold, ends := s.start.ends, outcome := outcome }]
  { s with store := { s.store with log := l.drop (l.length - 64) } }

/-- A start phase may still be entered: the start has not failed. -/
def State.starting (s : State) : Bool := match s.start.stage with | .phase _ => true | _ => false

/-- The feed removed, or the module turned off (R7, R454, R457), which ends a start in progress (R438): `latched` says that the feed must
first fall below 10 V. The clock begins again. -/
def State.powerOff (s : State) (latched : Bool) : State :=
  let s1 := (if s.starting then logStart s 5 else s).volatileOff
  let again (t : Int) : Int := t - s.now
  { s1 with
    now := 0
    quiescing := false, quiesce := .none
    start := { pressedAt := s.start.pressedAt.map again, reversed := s.start.reversed, updating := s.start.updating }
    power := { millivolts := s.power.millivolts, enable := s.power.enable, latched := latched, latchOpen := s.power.latchOpen,
               inlet := s.power.inlet, outlet := s.power.outlet, flow := s.power.flow,
               hotSince := s.power.hotSince.map (fun _ => 0) } }

/-- The feed is present and the module is not turned off. -/
def State.powered (s : State) : Bool := s.start.stage != .off

/-- A turn-off with the effect of feed removal, where the module is powered (R457). -/
def turnOff (s : State) : State := if s.powered then s.powerOff (decide (10000 ≤ s.power.millivolts)) else s

/-! ### Start phases (R432 to R442) -/

/-- The bound of a start phase in cycles (R432). -/
def phaseBound : Nat → Nat
  | 0 => second / 20
  | 1 => second / 4
  | 2 => 2 * second
  | 3 => second / 2
  | 4 => 3 * second
  | 5 => 20 * second
  | 6 => 8 * second
  | 7 => 2 * second
  | _ => 5 * second

/-- When the running phase began. -/
def Start.phaseStart (st : Start) : Nat := (st.ends.getLast?.map (fun e => e.2)).getD 0

/-- The registers as they show when the windows open (R13, R404 to R407): what is stored or found by the start, and
the reset values. -/
def openRegs (s : State) : SMap Nat :=
  let dies := (List.range 5).filter s.dieUp
  let fenced := ((List.range 120).filter (fun a => s.dieUp (a / 24) && bitOf (SMap.getD 0 s.store.repair a) 101)).length
  [(0x00, packMsb [(8, 1), (4, b2n s.variantB), (1, b2n s.number.isSome), (9, 0), (10, s.moduleNumber), (32, s.firmware)]),
   (0x08, s.serial),
   (0x10, packMsb [(10, 480), (6, 32), (10, 512), (4, 8), (8, 128), (6, 24), (7, 12 * dies.length), (7, fenced), (6, 0)]),
   (0x18, packMsb [(8, if s.variantB then 24 else 36), (5, 4 * dies.length), (8, 64), (5, 4 * dies.length), (8, 128), (30, 0)]),
   (0x20, packMsb [(48, 0), (4, 15), (3, 0), (7, 127), (2, 0)]),
   (0x28, 0),
   (0x30, packMsb [(8, 0), (8, 128), (2, if s.start.stage == .service then 3 else 0), (5, bitsToNat ((List.range 5).map s.dieUp)), (41, 0)])]

/-- The window of a partition as it opens (R408). -/
def partitionWindow (p : Nat) : Win := { isOpen := true, shownStatus := 2 ^ 32 + 2 ^ 31 + p * 2 ^ 27 }

/-- A partition without what lies on lost dies; the stored record stays whole (R442). -/
def Part.without (p : Part) (lost : List Nat) : Part :=
  if lost.isEmpty then p
  else { p with
    whole := some (p.whole.getD (p.tiles, p.windows))
    tiles := bitsToNat ((List.range 60).map (fun t => bitOf p.tiles t && !lost.contains (t / 12)))
    windows := p.windows.filter (fun w => !lost.contains (w.1 / 2)) }

/-- The partitions before the windows open (R442): those stored as CLOSING are destroyed, and none keeps what lies on a lost die. -/
def openParts (s : State) : State :=
  let closing := (s.parts.filter (fun e => e.2.state == .closing)).map (fun e => e.1)
  let s1 := closing.foldl destroyPart s
  { s1 with parts := s1.parts.map (fun e => (e.1, e.2.without s.lostDies)) }

/-- A start that completes (R434, R438, R441): the windows open. -/
def completeStart (s : State) : State :=
  let st := s.start
  let sw := st.updating
  let s2 := logStart (openParts s) 1
  let slotA := if sw && st.slot == 1 then s.store.slotB else s.store.slotA
  let slotB := if sw && st.slot == 1 then s.store.slotA else s.store.slotB
  { s2 with
    start := { st with stage := .running, updating := false, reversed := false }
    store := { s2.store with failedWarm := 0, slotA := slotA, slotB := slotB,
                             trial := if sw then none else s.store.trial
                             rollback := if sw then burnTo s.store.rollback s.firmware else s.store.rollback }
    clearing := []
    wins := (0, operatorReset) :: s2.parts.map (fun e => (e.1 + 1, partitionWindow e.1))
    regs := openRegs s2 }

/-- A start that fails (R438): a warm one begins again after 1 s, a cold one leaves the module in the service state, where
only the operator window opens (R439, R442). A start under a new firmware that does not complete lets the older slot run
next (R441). -/
def failStart (s : State) : State :=
  let s1 := logStart s 2
  if s.start.cold then
    let s2 : State := { openParts s1 with start := { s1.start with stage := .service, updating := false, reversed := false } }
    { s2 with wins := [(0, operatorReset)], regs := openRegs s2 }
  else
    let s2 := s1.volatileOff
    { s2 with
      store := { s2.store with failedWarm := s2.store.failedWarm + 1 }
      start := { s1.start with stage := .retry, ends := [(17, s.now)], updating := false, reversed := false } }

/-- The three starts before were warm and failed (R436), or the one before was, and brought the count of failed warm starts to three
(R438). -/
def threeFailed (st : Store) : Bool :=
  let l := st.log.drop (st.log.length - 3)
  let failed (e : StartEntry) : Bool := !e.cold && e.outcome == 2
  (l.length == 3 && l.all failed) || (st.failedWarm == 3 && st.log.getLast?.any failed)

/-- A start begins at P0 (R432, R436): `update` says that a firmware update was applied (R441), `held` that the service button has been
held since the feed was applied (R455). After a start under a new firmware that did not complete, the older slot comes first until
another update is written (log 109). -/
def beginStart (s : State) (update held : Bool) : State :=
  { s with
    start := { stage := .phase 0
               cold := update || threeFailed s.store || s.store.training.isNone || !s.store.mapped
               ends := [(16, s.now)]
               pressedAt := s.start.pressedAt
               heldFromFeed := held
               reversed := s.store.trial == some 0
               updating := update }
    links := s.links.map (fun e => (e.1, { e.2 with plugPowered := (match e.2.plugPower with | some w => decide (w ≤ 60) | none => false) }))
    store := { s.store with starts := s.store.starts + 1 }
    catalogue := s.catalogue.map (fun e => { e with places := e.places.map (fun h => { h with lost := h.lost || !h.remote }) }) }

/-- P1's check of a firmware image (R440). -/
def firmwareOk (rollback : BitVec 64) (bs : List Byte) : Bool :=
  let n := 256 + leAt bs 8 8
  let key := slice bs 16 64
  decide (n + 64 ≤ bs.length) && sha256 key == Config.vendorDigest && decide (thermometer rollback ≤ firmwareVersionOf bs)
    && ecdsaVerify key (sha256 (bs.take n)) (beNat (slice bs n 32)) (beNat (slice bs (n + 32) 32))

/-- The slot that P1 accepts, A before B unless the order is reversed (R432, R441). -/
def acceptSlot (s : State) : Option Nat :=
  let ok (k : Nat) : Bool := firmwareOk s.store.rollback (if k = 0 then s.store.slotA else s.store.slotB)
  (if s.start.reversed then [1, 0] else [0, 1]).find? ok

/-- A phase ends: its stamp is kept and the next begins. -/
def enterPhase (s : State) (ended next : Nat) : State :=
  { s with start := { s.start with stage := .phase next, ends := s.start.ends ++ [(ended, s.now)] } }

/-- Dies counted lost at start-up; with two of them the start fails (R434). -/
def loseAtStart (s : State) (dies : List Nat) : State :=
  let all := (s.lostDies ++ dies).eraseDups
  let s1 : State := { s with lostDies := all }
  if 2 ≤ all.length then failStart s1 else s1

/-- Dies that a mask does not hold, of those in service. -/
def missingDies (s : State) (mask : Nat) : List Nat := (List.range 5).filter (fun d => s.dieUp d && !bitOf mask d)

/-- The start is cold, or may still turn out so because the button is held (R436, R455). -/
def Start.coldish (st : Start) : Bool := st.cold || st.heldFromFeed

/-- Every device in service has a stored training result within 10 K of its temperature (R437). -/
def trainingValid (s : State) (temps : List (Nat × Nat)) : Bool :=
  match s.store.training with
  | none => false
  | some m =>
    let devices := ((List.range 20).filter (fun c => s.dieUp (c / 4))) ++ ((List.range 20).filter (fun c => s.dieUp (c / 4))).map (fun c => 32 + c)
      ++ [64, 65, 66, 67]
    devices.all (fun c => match SMap.find m c, temps.find? (fun t => t.1 == c) with
      | some old, some t => decide (t.2 ≤ old + 10) && decide (old ≤ t.2 + 10)
      | _, _ => false)

/-- The tiles that self-test reaches, those of dies in service (log 87), and their arrays (R131). -/
def testedTiles (s : State) : List Nat := (List.range 60).filter (fun t => s.dieUp (t / 12))
/-- The arrays that self-test reaches. -/
def testedArrays (s : State) : List Nat := (List.range 120).filter (fun a => s.dieUp (a / 24))

/-- Dies with a tile that cannot run any program, by the stored repair records (R130, R146). -/
def unusableDies (s : State) : List Nat :=
  (List.range 5).filter (fun d => s.dieUp d && ((List.range 12).map (fun t => 12 * d + t)).any (fun t =>
    (bitOf (SMap.getD 0 s.store.repair (2 * t)) 101 && bitOf (SMap.getD 0 s.store.repair (2 * t + 1)) 101)
      || bitOf (SMap.getD 0 s.store.skim t) 52))

/-- P7 begins: acquisition, or entry to LOCAL (R42, R432). -/
def enterP7 (s : State) : State :=
  let s1 := enterPhase { s with start := { s.start with hash := topologyHash s } } 6 7
  if s.store.localTime then
    let s2 := s1.shiftFrames ((2 ^ 47 : Nat) - (frameOf s1.now : Int))
    reclass { s2 with plumb := { s2.plumb with state := .localTime } }
  else s1

/-- P7 ends: P8 follows, or is skipped and the windows open (R434, R435, R437). -/
def leaveP7 (s : State) : State :=
  if !s.start.cold && s.store.topology == some s.start.hash then
    let s1 := enterPhase s 7 7
    completeStart { s1 with routes := s1.store.routes }
  else enterPhase s 7 8

/-- P8 ends: the topology hash is stored, and the routing table discarded (R435). -/
def leaveP8 (s : State) : State :=
  let s1 := enterPhase s 8 8
  completeStart { s1 with routes := [], store := { s1.store with topology := some (topologyHash s1), routes := [] } }

/-- P5 is entered or skipped once P4 has ended, or P3 where P4 is skipped (R437, R438). -/
def leaveP4 (s : State) (ended : Nat) : State :=
  if s.start.coldish then enterPhase s ended 5
  else
    let s1 := loseAtStart s (unusableDies s)
    if s1.starting then enterPhase s1 ended 6 else s1

/-- P6 has ended: every link with signal is trained or has failed every rung (R433). -/
def linksSettled (s : State) : Bool :=
  s.links.all (fun e => decide (laneCount e.2.signal < 2) || e.2.up || e.2.ladderFailed || e.2.state == .disabled)

/-- P2's check of the drive for a newer firmware image (R441). -/
def updateFound (s : State) (ns2 : List Byte) : Option (List Byte) :=
  let bs := ns2.take (firmwareLength ns2)
  if !ns2.isEmpty && s.store.tried != some (sha256 ns2) && decide (s.firmware < firmwareVersionOf ns2)
      && firmwareOk s.store.rollback ns2 && !s.start.updating then some bs
  else none

/-- The drive enumerated at P2 (R447): one whose namespace 3 no module has formatted is formatted, and holds nothing. Of its catalogue copy
the checkpoints that this module's own catalogue does not list have come with it, from another module (R400); what came with an
earlier drive goes with it (log 135). -/
def enumerate (s : State) (d : Option DriveReport) : State :=
  let own := s.catalogue.filter (fun e => !e.shipped)
  match d with
  | none => { s with drive := { s.drive with present := false }, catalogue := own }
  | some r =>
    let v : DriveVolume := if r.kept then { checkpoints := s.drive.checkpoints, frozen := s.drive.frozen, catalogue := s.drive.catalogue }
      else r.ns3.getD {}
    let mine (e : CatEntry) : Bool := own.any (fun x => x.checkpoint && x.part == e.part && x.job == e.job && x.number == e.number && x.module == e.module)
    { s with
      drive := { present := true, formatted := true, ns1 := r.ns1.foldl (fun (m : Mem) c => Mem.write m c.1 [c.2]) [], ns2 := r.ns2,
                 checkpoints := v.checkpoints, frozen := v.frozen, catalogue := v.catalogue }
      catalogue := own ++ (v.catalogue.filter (fun e => e.checkpoint && !mine e)).map (fun e => { e with shipped := true }) }

/-- The work of a start phase ends with what it found (R432 to R442). -/
def endPhase (s : State) (n : Nat) (r : PhaseReport) : State :=
  match n with
  | 0 =>
    if s.power.path || (s.power.enable && decide (90 ≤ r.bulk)) then
      let s1 := enterPhase s 0 1
      { s1 with start := { s1.start with p0End := s1.now }, power := { s1.power with path := true } }
    else s
  | 1 =>
    match acceptSlot s with
    | none => { (logStart s 3) with start := { s.start with stage := .bootStop } }
    | some k =>
      let image := if k = 0 then s.store.slotA else s.store.slotB
      let s1 := enterPhase s 1 2
      { s1 with
        firmware := firmwareVersionOf image
        firmwareDigest := sha256 (image.take (firmwareLength image))
        start := { s1.start with slot := k, cold := s1.start.cold || s.store.version != some (firmwareVersionOf image) } }
  | 2 =>
    if !r.hubOk then failStart s
    else
      let s1 := enumerate { s with start := { s.start with cold := s.start.cold || !r.recordsOk } } r.drive
      let drive := s1.drive
      match updateFound s1 drive.ns2 with
      | some bs =>
        let st := s1.store
        let st1 : Store := if s1.start.slot = 0 then { st with slotB := bs, trial := some 1 }
                           else { st with slotA := bs, trial := some 0 }
        let s2 := logStart { s1 with store := { st1 with tried := some (sha256 drive.ns2) } } 4
        let s3 := beginStart s2.volatileOff true false
        { s3 with start := { s3.start with reversed := s1.start.slot == 0 } }
      | none =>
        enterPhase { s1 with store := if drive.present && !drive.ns2.isEmpty then { s1.store with tried := some (sha256 drive.ns2) }
                                      else s1.store } 2 3
  | 3 =>
    let s1 := loseAtStart s (missingDies s r.dies)
    if s1.starting then
      if !s1.start.coldish && trainingValid s1 r.temps then leaveP4 s1 3 else enterPhase s1 3 4
    else s1
  | 4 =>
    if !r.hubOk then failStart s
    else
      let s1 := loseAtStart { s with store := { s.store with
        training := some (r.temps.foldl (fun (m : SMap Nat) t => SMap.set m t.1 t.2) []), version := some s.firmware } }
        (missingDies s r.dies)
      if s1.starting then leaveP4 s1 4 else s1
  | 5 =>
    let s0 : State := { s with store := { s.store with
      repair := (testedArrays s).foldl (fun (m : SMap Nat) a => SMap.set m a (repairRecord (foundIn r.repair a) s.now)) s.store.repair
      mapped := true, version := some s.firmware
      skim := (testedTiles s).foldl (fun (m : SMap Nat) t => SMap.set m t (skimRecord (skimIn r.skim t) s.now)) s.store.skim } }
    let s1 := loseAtStart { s0 with links := s0.links.map (fun e => (e.1, { e.2 with limit := 0 })) } (unusableDies s0)
    if s1.starting then enterPhase s1 5 6 else s1
  | 6 => if linksSettled s then enterP7 s else s
  | 7 => if s.plumb.state == .locked || s.plumb.state == .localTime then leaveP7 s else s
  | _ => if s.links.all (fun e => decide (e.2.since + second ≤ s.now)) then leaveP8 s else s

/-- A start phase reaches its bound (R432 to R434). `die` is the compute die that has not finished, 6 the hub's
packages. -/
def timeoutPhase (s : State) (n die : Nat) : State :=
  match n with
  | 1 => { (logStart s 3) with start := { s.start with stage := .bootStop } }
  | 3 | 5 => loseAtStart s [die]
  | 4 => if die = 6 then failStart s else loseAtStart s [die]
  | 6 => enterP7 s
  | 7 => leaveP7 s
  | 8 => leaveP8 s
  | _ => failStart s

end Sys2Proof.Machine
end

