-- ==== Sys2Proof/Machine/PowerRows.lean ====
section
/-!
DEFINITION. Sys2Proof/Machine/PowerRows.lean: the meanings of the commands of the feed, the coolant, the operator's controls
and the start (R432 to R442, R453 to R465).
-/
namespace Sys2Proof.Machine

/-! ### The feed -/

/-- FEED_APPLIED (R7, R457): after a turn-off the feed has first to fall below 10 V. The clock begins again. -/
def execFeedApplied (dt : Nat) (s : State) : Host.Outcome State Fault Refusal :=
  let s1 := s.after dt
  let again (t : Int) : Int := t - s1.now
  if !s1.powered && !s1.power.latched then
    .next (beginStart { s1 with
      now := 0
      start := { s1.start with pressedAt := s1.start.pressedAt.map again }
      power := { s1.power with millivolts := 52000, overSince := none, underSince := none,
                               hotSince := s1.power.hotSince.map (fun _ => 0) } } false s1.start.pressedAt.isSome)
  else .next s1

/-- FEED_REMOVED (R7). -/
def execFeedRemoved (dt : Nat) (s : State) : Host.Outcome State Fault Refusal :=
  let s1 := (s.after dt).powerOff false
  .next { s1 with power := { s1.power with millivolts := 0 } }

/-- A millisecond, in cycles. -/
def millisecond : Nat := second / 1000

/-- A stamp kept while a condition lasts. -/
def since (now : Nat) (was : Option Nat) (holds : Bool) : Option Nat := if holds then some (was.getD now) else none

/-- FEED_VOLTAGE_CHANGE (R457): above 65 V the hot-swap stage opens at once. -/
def execFeedVoltageChange (dt millivolts : Nat) (s : State) : Host.Outcome State Fault Refusal :=
  let s1 := s.after dt
  let p := s1.power
  let s2 := s1.sense { p with
    millivolts := millivolts
    latched := p.latched && decide (10000 ≤ millivolts)
    overSince := since s1.now p.overSince (decide (60000 < millivolts))
    underSince := since s1.now p.underSince (decide (millivolts < 44000)) }
  .next (if 65000 < millivolts then turnOff s2 else s2)

/-- FEED_OVERVOLTAGE_OPEN (R457): the feed has stayed above 60 V for 1 ms, or is above 65 V. -/
def execFeedOvervoltageOpen (dt : Nat) (s : State) : Host.Outcome State Fault Refusal :=
  let s1 := s.after dt
  if !s1.powered then .next s1
  else if 65000 < s1.power.millivolts then .next (turnOff s1)
  else
    match s1.power.overSince with
    | none => .next s1
    | some x => let t := max s1.now (x + millisecond); .next (turnOff ((s1.settle t).advance t))

/-- FEED_UNDERVOLTAGE_TURN_OFF (R457): the feed has stayed below 44 V for more than 0.5 ms. -/
def execFeedUndervoltageTurnOff (dt : Nat) (s : State) : Host.Outcome State Fault Refusal :=
  let s1 := s.after dt
  if !s1.powered then .next s1
  else
    match s1.power.underSince with
    | none => .next s1
    | some x => let t := max s1.now (x + millisecond / 2 + 1); .next (turnOff ((s1.settle t).advance t))

/-- HOTSWAP_OVERCURRENT (R462). -/
def execHotswapOvercurrent (dt : Nat) (s : State) : Host.Outcome State Fault Refusal := .next (turnOff (s.after dt))

/-- ENABLE_CONTACT_MATE (R458): P0 closes the main path once the bulk capacitance is charged. -/
def execEnableContactMate (dt : Nat) (s : State) : Host.Outcome State Fault Refusal :=
  let s1 := s.after dt
  .next { s1 with power := { s1.power with enable := true } }

/-- ENABLE_CONTACT_BREAK (R467). -/
def execEnableContactBreak (dt : Nat) (s : State) : Host.Outcome State Fault Refusal :=
  let s1 := turnOff (s.after dt)
  .next { s1 with power := { s1.power with enable := false, path := false } }

/-! ### The operator's controls -/

/-- Firmware runs: a start has reached P2 (R432). -/
def firmwareRuns (s : State) : Bool :=
  match s.start.stage with
  | .running | .service => true
  | .phase n => decide (2 ≤ n)
  | _ => false

/-- EJECTOR_LATCH_OPEN (R454): with the feed present, an emergency quiesce; nothing runs to carry it out at a boot-ROM stop (R436,
log 131). -/
def execEjectorLatchOpen (dt : Nat) (s : State) : Host.Outcome State Fault Refusal :=
  let s1 := s.after dt
  let s2 : State := { s1 with power := { s1.power with latchOpen := true } }
  .next (if s2.powered && s2.start.stage != .bootStop then requestEmergency s2 else s2)

/-- SERVICE_BUTTON_PRESS (R455): ignored during a quiesce. -/
def execServiceButtonPress (dt : Nat) (s : State) : Host.Outcome State Fault Refusal :=
  let s1 := s.after dt
  if s1.quiesce = .none then .next { s1 with start := { s1.start with pressedAt := some (s1.now : Int) } } else .next s1

/-- SERVICE_BUTTON_RELEASE (R455): before 1 s it toggles the identify light. -/
def execServiceButtonRelease (dt : Nat) (s : State) : Host.Outcome State Fault Refusal :=
  let s1 := s.after dt
  match s1.start.pressedAt with
  | none => .next s1
  | some p =>
    .next { s1 with start := { s1.start with
      pressedAt := none, heldFromFeed := false
      identify := if s1.now < p + second ∧ s1.powered = true then !s1.start.identify else s1.start.identify } }

/-- SERVICE_BUTTON_HELD_3S (R455). -/
def execServiceButtonHeld3s (dt : Nat) (s : State) : Host.Outcome State Fault Refusal :=
  let s1 := s.after dt
  match s1.start.pressedAt with
  | none => .next s1
  | some p =>
    if s1.start.heldFromFeed then
      let t := s1.start.p0End + 3 * second
      if s1.start.stage ≠ .phase 0 ∧ s1.now ≤ t then
        let s2 := (s1.settle t).advance t
        .next (if s2.starting then { s2 with start := { s2.start with cold := true } } else s2)
      else .next s1
    else if (s1.start.stage = .running ∨ s1.start.stage = .service) ∧ s1.now ≤ p + 3 * second ∧ s1.quiesce = .none then
      let t := (p + 3 * second).toNat
      let s2 := (s1.settle t).advance t
      .next (requestOrderly { s2 with start := { s2.start with requestLight := true } })
    else .next s1

/-- A start has ended P0 and has not stopped: what the button asks for can be done. -/
def Stage.serves : Stage → Bool
  | .phase n => decide (1 ≤ n)
  | .running | .service => true
  | _ => false

/-- SERVICE_BUTTON_HELD_10S (R444, R455): the access list is emptied. -/
def execServiceButtonHeld10s (dt : Nat) (s : State) : Host.Outcome State Fault Refusal :=
  let s1 := s.after dt
  let t := s1.start.p0End + 10 * second
  if s1.start.heldFromFeed && s1.start.pressedAt.isSome && s1.start.stage.serves && decide (s1.now ≤ t) then
    let s2 := (s1.settle t).advance t
    .next { s2 with store := { s2.store with access := [] } }
  else .next s1

/-! ### Coolant and silicon -/

/-- COOLANT_SENSOR_CHANGE (R464): temperatures in tenths of °C, flow in mL/min. -/
def execCoolantSensorChange (dt inlet outlet flow : Nat) (s : State) : Host.Outcome State Fault Refusal :=
  let s1 := s.after dt
  let hot := decide (500 < inlet) || decide (flow < 3000)
  .next (s1.sense { s1.power with
    inlet := inlet, outlet := outlet, flow := flow, hotSince := since s1.now s1.power.hotSince hot })

/-- COOLANT_EMERGENCY_TIMEOUT (R464): 10 s beyond a limit. -/
def execCoolantEmergencyTimeout (dt : Nat) (s : State) : Host.Outcome State Fault Refusal :=
  let s1 := s.after dt
  match s1.power.hotSince with
  | none => .next s1
  | some t =>
    if s1.now ≤ t + 10 * second ∧ firmwareRuns s1 = true then
      .next (requestEmergency ((s1.settle (t + 10 * second)).advance (t + 10 * second)))
    else .next s1

/-- HUB_THERMAL_TRIP (R465). -/
def execHubThermalTrip (dt : Nat) (s : State) : Host.Outcome State Fault Refusal := .next (turnOff (s.after dt))

/-- A number in or out of a list of alarms. -/
def setAlarm (l : List Nat) (n : Nat) (active : Bool) : List Nat :=
  if active then (if l.contains n then l else l ++ [n]) else l.filter (fun x => x != n)

/-- POWER_STAGE_ALARM (R465): a power stage above 110 °C, or a rail in current limit. -/
def execPowerStageAlarm (dt : Nat) (rail : Bool) (number : Nat) (active : Bool) (s : State) :
    Host.Outcome State Fault Refusal :=
  let s1 := s.after dt
  let p := s1.power
  .next (s1.sense (if rail then { p with rails := setAlarm p.rails number active }
                   else { p with stages := setAlarm p.stages number active }))

/-- POWER_SAMPLE (R459, R460, R461): the governor trips above 3.4 kW, or after 11 samples above 3.0 kW. -/
def execPowerSample (dt milliwatts : Nat) (s : State) : Host.Outcome State Fault Refusal :=
  let s1 := s.after dt
  if s1.powered then
    let above := if 3000000 < milliwatts then s1.power.above + 1 else 0
    let s2 : State := { s1 with power := { s1.power with samples := milliwatts :: s1.power.samples.take 999, above := above } }
    let trip := (decide (3400000 < milliwatts) || decide (11 ≤ above)) && !s2.power.tripped
      && !s2.acts.any (fun a => a.2 == .trip) && s2.start.stage != .bootStop
    .next (if trip then s2.plan (nextFrame s2.now) .trip else s2)
  else .next s1

/-! ### The start -/

/-- START_PHASE_COMPLETE (R434): within the phase's bound. -/
def execStartPhaseComplete (dt : Nat) (r : PhaseReport) (s : State) : Host.Outcome State Fault Refusal :=
  let s1 := s.after dt
  match s1.start.stage with
  | .phase n => .next (if s1.now ≤ s1.start.phaseStart + phaseBound n then endPhase s1 n r else s1)
  | _ => .next s1

/-- START_PHASE_TIMEOUT (R438): at the phase's bound. -/
def execStartPhaseTimeout (dt die : Nat) (s : State) : Host.Outcome State Fault Refusal :=
  let s1 := s.after dt
  match s1.start.stage with
  | .phase n =>
    let t := s1.start.phaseStart + phaseBound n
    if s1.now ≤ t then .next (timeoutPhase ((s1.settle t).advance t) n die) else .next s1
  | _ => .next s1

/-- HUB_WATCHDOG_TIMEOUT (R438): firmware runs from P2 on. -/
def execHubWatchdogTimeout (dt : Nat) (s : State) : Host.Outcome State Fault Refusal :=
  let s1 := s.after dt
  match s1.start.stage with
  | .phase n => .next (if 2 ≤ n then failStart s1 else s1)
  | _ => .next s1

/-- START_RETRY (R438): 1 s after a failed warm start. -/
def execStartRetry (dt : Nat) (s : State) : Host.Outcome State Fault Refusal :=
  let s1 := s.after dt
  if s1.start.stage = .retry then
    let t := s1.start.phaseStart + second
    let s2 := (s1.settle t).advance t
    .next (beginStart s2 false s2.start.heldFromFeed)
  else .next s1

/-- QUIESCE_COMPLETE (R453): steps 3 and 4 of a quiesce. -/
def execQuiesceComplete (dt : Nat) (s : State) : Host.Outcome State Fault Refusal :=
  let s1 := s.after dt
  match s1.quiesce with
  | .closing => .next (finishQuiesce s1)
  | .orderly => .next (if s1.allFenced then finishQuiesce s1 else s1)
  | _ => .next s1

end Sys2Proof.Machine
end

