-- ==== Sys2Proof/Machine/Params.lean ====
section
/-!
DEFINITION. Sys2Proof/Machine/Params.lean: the command catalogue (R419) and checks 1 to 5 of R415: the packet header, the
indirect block, and the parameters of every command (R410, R419 to R426, R450).
-/
namespace Sys2Proof

/-! ### Fields of a packet (R409, R410) -/

/-- The partition of a window, 0 for the operator's. -/
def Call.pid (c : Call) : Nat := c.win - 1

/-- The parameters are in an indirect block (R409). -/
def Call.indirect (c : Call) : Bool := Machine.bitOf c.flags 0

/-- An inline parameter. -/
def Call.par (c : Call) (off len : Nat) : Nat := Machine.leAt c.params off len

/-- The parameters of a command that may use either form (R410). -/
def Call.fields (c : Call) (block : List Byte) : List Byte := if c.indirect then block else c.params

end Sys2Proof

namespace Sys2Proof.Machine

/-! ### The catalogue (R419) -/

/-- A catalogue entry: the windows that accept the command, whether its parameters are inline (0), a block (1) or either
(2), and the least bytes of its block. -/
structure CatRow where
  op : Bool
  part : Bool
  block : Nat
  bytes : Nat := 0
  deriving DecidableEq, Repr

/-- The catalogue (R419). -/
def catRow : Nat → Option CatRow
  | 0x0101 | 0x0104 => some { op := true, part := false, block := 1, bytes := 256 }
  | 0x0102 | 0x0103 => some { op := true, part := false, block := 0 }
  | 0x0201 | 0x0202 => some { op := false, part := true, block := 0 }
  | 0x0301 => some { op := false, part := true, block := 1, bytes := 128 }
  | 0x0302 | 0x0303 | 0x0304 => some { op := false, part := true, block := 0 }
  | 0x0305 => some { op := false, part := true, block := 1, bytes := 192 }
  | 0x0401 | 0x0402 | 0x0403 => some { op := false, part := true, block := 0 }
  | 0x0501 => some { op := false, part := true, block := 1, bytes := 192 }
  | 0x0502 | 0x0503 => some { op := false, part := true, block := 0 }
  | 0x0504 => some { op := false, part := true, block := 2, bytes := 32 }
  | 0x0505 | 0x0506 | 0x0601 | 0x0602 | 0x0701 => some { op := false, part := true, block := 0 }
  | 0x0801 => some { op := true, part := false, block := 0 }
  | 0x0802 => some { op := true, part := false, block := 1, bytes := 32 }
  | 0x0803 => some { op := true, part := false, block := 0 }
  | 0x0901 => some { op := true, part := true, block := 0 }
  | 0x0902 => some { op := true, part := false, block := 0 }
  | 0x0A01 => some { op := true, part := true, block := 0 }
  | 0x0A02 => some { op := true, part := true, block := 1, bytes := 32 }
  | 0x0B01 => some { op := true, part := false, block := 0 }
  | _ => none

/-! ### Windows and packets (R402, R408 to R411) -/

/-- A window block. -/
def State.win (s : State) (w : Nat) : Win := SMap.getD {} s.wins w
/-- A window block changed, where it exists. -/
def State.updWin (s : State) (w : Nat) (f : Win → Win) : State :=
  match SMap.find s.wins w with
  | some x => { s with wins := SMap.set s.wins w (f x) }
  | none => s

/-- Offsets in a window block (R402): the slot of a sequence number, the reply slot of a head, the parameter and output
areas. -/
def slotAt (seq : Nat) : Nat := 64 * (seq % 64)
/-- The reply slot of a head. -/
def replyAt (head : Nat) : Nat := 0x1000 + 32 * (head % 128)
/-- The parameter area. -/
def paramArea : Nat := 0x100000
/-- The output area. -/
def outputArea : Nat := 0x200000
/-- Bytes of the parameter area and of the output area. -/
def areaBytes : Nat := 2 ^ 20

/-- Every byte outside the listed ranges is zero. -/
def onlyBytes (bs : List Byte) (used : List (Nat × Nat)) : Bool :=
  bs.zipIdx.all (fun e => e.1 == 0 || used.any (fun u => decide (u.1 ≤ e.2) && decide (e.2 < u.1 + u.2)))

/-- Check 4 (R410, R415): the header. -/
def headerOk (opcode : Nat) (c : Call) (row : CatRow) : Bool :=
  c.reserved == 0 && decide (c.flags < 4) && (!bitOf c.flags 1 || opcode == 0x0803)
    && (if c.indirect then
          row.block != 0 && decide (1 ≤ c.length) && decide (c.length ≤ 32768) && c.par 0 4 % 32 == 0
            && decide (c.par 0 4 + 32 * c.length ≤ areaBytes) && onlyBytes c.params [(0, 4)]
            && decide (row.bytes ≤ 32 * c.length)
        else row.block != 1 && decide (c.length ≤ 48))

/-- The indirect block of a packet (R410). -/
def blockOf (s : State) (c : Call) : List Byte :=
  if c.indirect then Mem.read (s.win c.win).area (paramArea + c.par 0 4) (32 * c.length) else []

/-- The windows of a KEY_INSTALL kind (R450): operator, partition. -/
def keyWindows (kind : Nat) : Bool × Bool :=
  match kind with
  | 2 => (true, false)
  | 3 | 4 => (false, true)
  | _ => (true, true)

/-! ### What a window's partition holds -/

/-- A job of the window's partition named by a 2-byte field, Reserved bits zero (R415, R419). -/
def State.owns (s : State) (c : Call) (v : Nat) : Bool :=
  decide (v < 4096) && (match s.job v with | some j => c.win != 0 && j.part == c.pid | none => false)

/-- The same for a job of a kind that serves. -/
def State.ownsServing (s : State) (c : Call) (v : Nat) : Bool :=
  s.owns c v && (match s.job v with | some j => serves j.kind | none => false)

/-- The same, or a replay job, which answers every request command with DENIED (R396). -/
def State.ownsRequests (s : State) (c : Call) (v : Nat) : Bool :=
  s.owns c v && (match s.job v with | some j => serves j.kind || j.replay | none => false)

/-- A Request Table entry that a command of a job may name: FREE, or of that job (R304, R415). -/
def State.ownsEntry (s : State) (c : Call) (jid e : Nat) : Bool :=
  decide (e < 16384) && ((s.req e).state == .free || ((s.req e).part == c.pid && (s.req e).job == jid))

/-- The vocabulary of the served model (R179, R305): the teacher's where the body has a distillation table, else the
largest the module takes (log 60). -/
def State.vocab (s : State) (j : Job) : Nat :=
  let t := s.jobConstant j 1
  if t.isEmpty then 262144 else leAt t 0x14 4

/-! ### Check 5 (R415, R419 to R426) -/

/-- The partition block (R420): `cap` is the GiB of a die's tiers. -/
def partBlockOk (variantB : Bool) (b : List Byte) : Bool :=
  decide (leAt b 0 1 ≤ 11) && within 1 2 (leAt b 1 1) && decide (leAt b 2 1 ≤ 1) && decide (1 ≤ leAt b 4 2)
    && decide (leAt b 8 8 < 2 ^ 60) && allZero (slice b 3 1) && allZero (slice b 6 2) && allZero (slice b 0x60 80)
    && allZero (slice b 0xD0 48)
    && (List.range 10).all (fun i =>
      let w := leAt b (0x10 + 8 * i) 8
      let cap := if i % 2 = 1 then 256 else if variantB then 96 else 144
      clear w 62 25 && clear w 15 9 && decide (bitsOf w 24 16 ≤ 256)
        && (!bitOf w 63 || decide (bitsOf w 8 0 + bitsOf w 24 16 ≤ cap)))

/-- The serving policy word (R298). -/
def policyOk (w : Nat) : Bool :=
  clear w 15 0 && (bitsOf w 57 48 == 0 || (decide (1 ≤ bitsOf w 47 44) && decide (1 ≤ bitsOf w 43 36)))

/-- The job block (R421). -/
def jobBlockOk (s : State) (c : Call) (b : List Byte) : Bool :=
  match s.image c.pid (leAt b 0 4) with
  | none => false
  | some i =>
    let serving := serves i.kind
    decide (leAt b 4 2 < 4096) && decide (leAt b 6 2 < 128) && decide (leAt b 8 8 < 2 ^ 48)
      && decide (leAt b 0x18 2 < 1024) && decide (leAt b 0x1A 2 < 1024)
      && (if serving then within 2 1024 (leAt b 0x1C 4) && policyOk (leAt b 0x20 8)
          else leAt b 0x1C 4 == 0 && leAt b 0x20 8 == 0)
      && (List.range 5).all (fun die => leAt b (0x28 + 8 * die) 8 % 128 == 0)
      && leAt b 0x60 8 % 4096 == 0 && allZero (slice b 0x68 24)

/-- The replay block (R422). -/
def replayBlockOk (s : State) (c : Call) (b : List Byte) : Bool :=
  s.owns c (leAt b 0 2) && decide (leAt b 2 1 ≤ 2) && decide (leAt b 3 1 ≤ 1) && decide (leAt b 4 1 ≤ 64)
    && allZero (slice b 5 3) && decide (leAt b 8 8 ≤ leAt b 0x10 8) && decide (leAt b 0x10 8 < 2 ^ 48)
    && (leAt b 3 1 == 0 || decide (leAt b 0x28 4 + 32 * leAt b 0x2C 4 ≤ areaBytes)) && allZero (slice b 0x30 16)
    && (List.range 64).all (fun i =>
      if i < leAt b 4 1 then decide (leAt b (0x40 + 2 * i) 2 < 4096) else leAt b (0x40 + 2 * i) 2 == 0)

/-- A finite FP32 pattern. -/
def fpFinite (w : Nat) : Bool := bitsOf w 30 23 != 255

/-- The sampling-counts header (R305) against a vocabulary. -/
def countsHeaderOk (v : Nat) (h : List Byte) : Bool :=
  let t := leAt h 8 4
  let p := leAt h 0xC 4
  let rho := leAt h 0x14 4
  (t == 0 || within 0x00800000 0x7F7FFFFF t) && within 1 0x3F800000 p && within 1 1024 (leAt h 0x10 2)
    && decide (leAt h 0x12 2 ≤ 1) && within 0x3F800000 0x7F7FFFFF rho && fpFinite (leAt h 0x18 4) && fpFinite (leAt h 0x1C 4)
    && decide (leAt h 0x20 1 ≤ 8) && allZero (slice h 0x21 31) && allZero (slice h 0x60 32)
    && (List.range 8).all (fun i =>
      if i < leAt h 0x20 1 then decide (leAt h (0x40 + 4 * i) 4 < v) else leAt h (0x40 + 4 * i) 4 == 0)

/-- The 4-byte tokens from an offset, each below the vocabulary. -/
def tokensOk (v : Nat) (b : List Byte) (off n : Nat) : Bool :=
  (List.range n).all (fun i => decide (leAt b (off + 4 * i) 4 < v))

/-- The tokens. -/
def tokensAt (b : List Byte) (off n : Nat) : List Nat := (List.range n).map (fun i => leAt b (off + 4 * i) 4)

/-- Bytes of a sampling-counts block (R305). -/
def countsBytes (v : Nat) : Nat := roundUp (128 + 2 * v) 32

/-- The admission block (R273, R305, R423). -/
def admissionOk (s : State) (c : Call) (b : List Byte) : Bool :=
  match s.job (leAt b 0 2) with
  | none => false
  | some j =>
    let v := s.vocab j
    let n := leAt b 0x14 4
    let limit := leAt b 0x10 4
    let set := leAt b 6 1
    s.ownsRequests c (leAt b 0 2) && decide (leAt b 2 2 < 4096) && decide (leAt b 4 1 ≤ 7) && decide (leAt b 5 1 ≤ 1)
      && decide (leAt b 7 1 ≤ 4) && within 1 262144 limit && within 1 262096 n && allZero (slice b 0x1C 36)
      && decide (192 + 4 * n ≤ b.length) && countsHeaderOk v (slice b 64 128) && tokensOk v b 192 n
      && decide (n + 1 ≤ limit) && decide (limit ≤ (match s.jobImage j with | some i => i.field 0x18 4 | none => 0))
      && ((s.part j.part).windowAddr (leAt b 7 1) false (32 * leAt b 0x18 4) (countsBytes v)).isSome
      && (set == 0 || (match j.serve with
          | some x => x.versions.any (fun e => e.set == set && e.inPlace && !e.retiring)
          | none => false))

/-- The block of KEY_INSTALL (R450). -/
def keyBlockOk (c : Call) (b : List Byte) : Bool :=
  let idx := leAt b 1 1
  let own := if c.win = 0 then decide (idx < 8) else within 8 15 idx
  match leAt b 0 1 with
  | 0 => decide (96 ≤ b.length) && own && onlyBytes b [(0, 2), (0x20, 64)] && onCurve (keyPoint (slice b 0x20 64))
  | 1 => own && onlyBytes b [(0, 2)]
  | 2 => decide (96 ≤ b.length) && decide (idx < 64) && decide (leAt b 4 2 < 2 ^ 13) && onlyBytes b [(0, 2), (4, 2), (0x20, 64)]
  | 3 => decide (0x160 ≤ b.length) && onlyBytes b [(0, 1), (8, 4), (0x20, 0x140)] && leAt b 8 4 % 32 == 0
          && decide (leAt b 8 4 + 320 ≤ areaBytes)
  | 4 => decide (0x160 ≤ b.length) && onlyBytes b [(0, 1), (0x20, 0x140)]
  | _ => false

/-- Partitions that a quote reports (R449). -/
def quotedParts (s : State) (c : Call) : List Nat :=
  if c.win = 0 then (List.range 12).filter (fun p => (s.part p).state != .free) else [c.pid]

/-- Check 5 of an inline command (R415, R419, R425, R426). -/
def inlineOk (s : State) (opcode : Nat) (c : Call) : Bool :=
  let p := c.params
  match opcode with
  | 0x0102 | 0x0103 => decide (c.par 0 1 ≤ 11) && onlyBytes p [(0, 1)]
  | 0x0201 => decide (c.par 0 1 ≤ 1) && onlyBytes p [(0, 1), (8, 16)] && (c.par 0 1 == 1 || decide (c.par 8 8 + c.par 16 8 ≤ 4 * gib))
  | 0x0202 => onlyBytes p [(0, 1)] && (s.image c.pid (c.par 0 1)).isSome
  | 0x0302 => s.owns c (c.par 0 2) && onlyBytes p [(0, 2)]
  | 0x0303 => s.owns c (c.par 0 2) && onlyBytes p [(0, 2), (8, 12), (24, 8)] && decide (c.par 24 8 < 2 ^ 48)
  | 0x0304 => s.owns c (c.par 0 2) && onlyBytes p [(0, 2), (8, 8)] && (decide (c.par 8 8 < 2 ^ 48) || c.par 8 8 == 2 ^ 64 - 1)
  | 0x0401 => s.owns c (c.par 0 2) && onlyBytes p [(0, 3)] && decide (c.par 2 1 ≤ 1)
  | 0x0402 => s.owns c (c.par 0 2) && s.owns c (c.par 8 2) && onlyBytes p [(0, 3), (4, 6)] && decide (c.par 2 1 ≤ 1)
  | 0x0403 => s.owns c (c.par 0 2) && onlyBytes p [(0, 3), (4, 4)] && decide (c.par 2 1 ≤ 1)
  | 0x0502 => s.ownsRequests c (c.par 0 2) && s.ownsEntry c (c.par 0 2) (c.par 4 4) && onlyBytes p [(0, 2), (4, 4)]
  | 0x0503 => s.ownsRequests c (c.par 0 2) && s.ownsEntry c (c.par 0 2) (c.par 4 4) && onlyBytes p [(0, 2), (4, 8)]
  | 0x0505 | 0x0506 => s.ownsServing c (c.par 0 2) && onlyBytes p [(0, 2), (8, 8)] && decide (c.par 8 8 < 2 ^ 48)
  | 0x0601 => s.ownsServing c (c.par 0 2) && onlyBytes p [(0, 3), (8, 8)] && decide (1 ≤ c.par 2 1)
  | 0x0602 => s.ownsServing c (c.par 0 2) && onlyBytes p [(0, 3), (4, 2)] && decide (1 ≤ c.par 2 1)
  | 0x0701 => decide (c.par 0 2 < 4096) && decide (c.par 2 1 < 32) && decide (c.par 3 1 < 4) && onlyBytes p [(0, 4), (8, 16)]
      && decide (c.par 8 8 < 2 ^ 48) && decide (c.par 16 4 < 2 ^ 24) && decide (c.par 20 4 < 2 ^ 24)
  | 0x0801 => decide (c.par 0 1 ≤ 3) && decide (c.par 1 1 ≤ 1) && decide (c.par 2 2 < 1024) && onlyBytes p [(0, 4), (8, 4)]
      && c.par 8 4 % 32 == 0 && decide (c.par 8 4 + 1536 ≤ areaBytes)
  | 0x0803 => decide (c.par 8 1 ≤ 3) && decide (c.par 9 1 ≤ 2) && onlyBytes p [(0, 10)]
  | 0x0901 => decide (c.par 0 1 ≤ 12) && onlyBytes p [(0, 1), (2, 18)] && c.par 12 4 % 32 == 0
      && decide (c.par 12 4 + c.par 16 4 ≤ areaBytes)
      && (if c.par 0 1 = 8 ∨ c.par 0 1 = 9 ∨ c.par 0 1 = 12 then
            (if c.win = 0 then decide (c.par 2 2 < 4096) && (s.job (c.par 2 2)).isSome else s.owns c (c.par 2 2))
          else c.par 0 1 != 6 || c.win != 0 || decide (c.par 2 1 ≤ 11))
  | 0x0902 => onlyBytes p [(0, 1), (4, 4)]
  | 0x0A01 => onlyBytes p [(0, 36)] && c.par 32 4 % 32 == 0
      && decide (c.par 32 4 + 320 + 1024 * (quotedParts s c).length ≤ areaBytes)
  | _ => decide (c.par 0 1 ≤ 1) && onlyBytes p [(0, 1)]

/-- Check 5 (R415): the parameters. -/
def paramsOk (s : State) (opcode : Nat) (c : Call) (b : List Byte) : Bool :=
  match opcode with
  | 0x0101 | 0x0104 => partBlockOk s.variantB b
  | 0x0301 => jobBlockOk s c b
  | 0x0305 => replayBlockOk s c b
  | 0x0501 => admissionOk s c b
  | 0x0504 =>
    let f := c.fields b
    s.ownsRequests c (leAt f 0 2) && s.ownsEntry c (leAt f 0 2) (leAt f 4 4)
      && (if c.indirect then
            let n := leAt b 8 4
            allZero (slice b 2 2) && allZero (slice b 12 20) && decide (32 + 4 * n ≤ b.length)
              && (match s.job (leAt b 0 2) with | some j => tokensOk (s.vocab j) b 32 n | none => false)
          else onlyBytes c.params [(0, 2), (4, 4)])
  | 0x0802 =>
    let n := leAt b 2 2
    decide (leAt b 0 2 + n ≤ 1024) && decide (1 ≤ n) && allZero (slice b 4 28) && decide (32 + 4 * n ≤ b.length)
      && (List.range n).all (fun i =>
        let w := leAt b (32 + 4 * i) 4
        clear w 29 22 && clear w 17 12)
  | 0x0A02 => keyBlockOk c b
  | _ => inlineOk s opcode c

/-- A refusal of a packet (R415, R416): its stamp is the collection boundary. -/
def refusal (at_ status : Nat) : Reply := { status := status, stamp := at_ }

/-- The checks that stand before those of R415: FAILED (R387), the service state (R439), a quiesced module (R454). -/
def overrides (s : State) (opcode : Nat) : Option Nat :=
  let spared := opcode == 0x0901 || opcode == 0x0A01 || opcode == 0x0B01
  if spared then none
  else if s.failed || s.start.stage == .service then some stDeviceFault
  else if s.quiesce == .done then some stDenied
  else none

/-- Checks 1 to 5 of R415 in order, on a packet collected at the clock's boundary: the status of the first that fails. -/
def firstCheck (s : State) (opcode : Nat) (c : Call) (b : List Byte) : Option Nat :=
  match overrides s opcode with
  | some st => some st
  | none =>
    if c.partition ≠ (if c.win = 0 then 0xFF else c.pid) then some stDenied
    else
      match catRow opcode with
      | none => some stBadOpcode
      | some row =>
        let head := headerOk opcode c row
        let keyOk := opcode != 0x0A02
          || (if c.win = 0 then (keyWindows (leAt b 0 1)).1 else (keyWindows (leAt b 0 1)).2)
        if !(if c.win = 0 then row.op else row.part) || !keyOk then some stDenied
        else if !head then some stBadParam
        else if !paramsOk s opcode c b then some stBadParam
        else none

end Sys2Proof.Machine
end

