-- ==== Sys2Proof/Machine/Commands.lean ====
section
/-!
DEFINITION. Sys2Proof/Machine/Commands.lean: packets collected from the windows (R408 to R412), the order in which they take
effect (R417), and the posting of replies and of the registers at a tick boundary (R403 to R407, R413, R414).
-/
namespace Sys2Proof.Machine

/-! ### Collection (R411, R412) -/

/-- Collected commands of a window without a posted final reply (R408). -/
def State.outstanding (s : State) (w : Nat) : Nat := (s.cmds.filter (fun c => c.call.win == w)).length

/-- Reply slots that neither hold an unread reply nor are reserved (R414). -/
def State.replyRoom (s : State) (w : Nat) : Nat :=
  let x := s.win w
  128 - ((x.head + 2 ^ 32 - x.ack) % 2 ^ 32 + 2 * s.outstanding w)

/-- A window's next packet may be collected: the window is open and two reply slots are left to reserve (R408, R414). -/
def State.mayCollect (s : State) (w : Nat) : Bool := (s.win w).isOpen && decide (2 ≤ s.replyRoom w)

/-- The slot of Expected holds that number, and its sequence word was written before the clock's boundary (R411). -/
def State.collectable (s : State) (w : Nat) : Bool :=
  let x := s.win w
  leAt (Mem.read x.area (slotAt x.expected + 8) 4) 0 4 == x.expected
    && (match SMap.find x.written (x.expected % 64) with | some t => decide (t < s.now) | none => true)

/-- The first sequence number from Expected on whose slot does not hold it: where software puts its next packet (R411, R412). None
where 64 packets wait. -/
def Win.free (x : Win) : Option Nat :=
  ((List.range 64).map (fun i => (x.expected + i) % 2 ^ 32)).find? (fun n => leAt (Mem.read x.area (slotAt n + 8) 4) 0 4 != n)

/-- Collection at the clock's boundary has gone past a window (R412). -/
def State.gonePast (s : State) (w : Nat) : Bool :=
  match s.passed with
  | some (t, x) => t == s.now && decide (w < x)
  | none => false

/-- A packet put in a window now is the next that the clock's boundary collects there. -/
def State.takesNext (s : State) (w : Nat) : Bool := (s.win w).free == some (s.win w).expected && !s.gonePast w

/-- The 64 bytes of a packet (R409). -/
def packetBytes (opcode seq : Nat) (c : Call) : List Byte :=
  leBytes 2 opcode ++ leBytes 1 c.partition ++ leBytes 1 c.flags ++ leBytes 4 c.tag ++ leBytes 4 seq ++ leBytes 2 c.length
    ++ leBytes 2 c.reserved ++ fitTo 0 48 c.params

/-- A packet from a slot's bytes: its opcode, its sequence number, the rest. -/
def commandPacket (win : Nat) (bs : List Byte) : Nat × Nat × Call :=
  (leAt bs 0 2, leAt bs 8 4,
    { win := win, partition := leAt bs 2 1, flags := leAt bs 3 1, tag := leAt bs 4 4, length := leAt bs 12 2,
      reserved := leAt bs 14 2, params := slice bs 16 48 })

/-- What a command names (R417): jobs, request entries, partitions, links. -/
def keysOf (opcode : Nat) (c : Call) (b : List Byte) : List Key :=
  match opcode with
  | 0x0101 | 0x0104 => [.part (leAt b 0 1)]
  | 0x0102 | 0x0103 => [.part (c.par 0 1)]
  | 0x0301 => [.job (leAt b 4 2)]
  | 0x0305 | 0x0501 => [.job (leAt b 0 2)]
  | 0x0302 | 0x0303 | 0x0304 | 0x0401 | 0x0403 | 0x0505 | 0x0506 | 0x0601 | 0x0602 => [.job (c.par 0 2)]
  | 0x0402 => [.job (c.par 0 2), .job (c.par 8 2)]
  | 0x0502 | 0x0503 => [.job (c.par 0 2), .entry (c.par 4 4)]
  | 0x0504 => [.job (leAt (c.fields b) 0 2), .entry (leAt (c.fields b) 4 4)]
  | 0x0803 => ((List.range 64).filter (bitOf (c.par 0 8))).map .link
  | 0x0901 =>
    if c.par 0 1 = 8 ∨ c.par 0 1 = 9 ∨ c.par 0 1 = 12 then [.job (c.par 2 2)]
    else if c.par 0 1 = 6 ∧ c.win = 0 then [.part (c.par 2 1)] else []
  | _ => []

/-- One packet collected at the clock's boundary: checks 1 to 5 of R415 are made, and Expected rises. -/
def collect (s : State) (opcode : Nat) (c : Call) : State :=
  let b := blockOf s c
  let r := (firstCheck s opcode c b).map (refusal s.now)
  { s.updWin c.win (fun w => { w with expected := (w.expected + 1) % 2 ^ 32 }) with
    cmdSeq := s.cmdSeq + 1
    cmds := s.cmds ++ [{ id := s.cmdSeq, opcode := opcode, call := c, block := b, collected := s.now,
                         keys := keysOf opcode c b, reply := r }] }

/-! ### Order (R417, R418) -/

/-- An earlier command holds back a later one: both name one thing, and the earlier one is not answered. A SNAP_TAKE joins a capture
that is pending (R418), and a JOB_STOP waits for no request or expert command, which the fence that it asks for answers STALE (R334,
log 51). -/
def Cmd.holds (a b : Cmd) : Bool :=
  decide (a.id < b.id) && a.waiting && !(a.opcode == 0x0401 && b.opcode == 0x0401)
    && !(b.opcode == 0x0304 && (a.opcode / 256 == 5 || a.opcode / 256 == 6)) && a.keys.any (fun k => b.keys.contains k)

/-- The commands that take effect now: not begun, not answered, not held back. -/
def State.due (s : State) : List Cmd :=
  s.cmds.filter (fun c => !c.started && c.waiting && !s.cmds.any (fun a => a.holds c))

/-- A job withdrawn, halted or gone answers its later commands itself (R334, R384). -/
def gate (s : State) (c : Cmd) : Option Nat :=
  if c.opcode = 0x0301 then none
  else
    (c.keys.filterMap (fun k => match k with
      | .job jid =>
        match s.job jid with
        | none => some stStale
        | some j =>
          if (match j.stop with | some x => x.reached | none => false) then some stStale
          else if j.mode == .halted && !(c.opcode == 0x0304 || c.opcode == 0x0402 || c.opcode == 0x0403 || c.opcode == 0x0901)
          then some stDeviceFault
          else none
      | _ => none)).head?

/-! ### Replies (R414, R416) -/

/-- The slots of a reply: one, or two where it is long. -/
def replySlots (c : Cmd) (r : Reply) : List Byte :=
  let ws := fitTo 0 12 r.words
  leBytes 4 c.call.tag ++ leBytes 1 r.status ++ leBytes 1 (b2n r.long + 2 * b2n r.more) ++ leBytes 2 c.opcode
    ++ leBytes 8 r.stamp ++ (ws.take 4).flatMap (leBytes 4) ++ (if r.long then (ws.drop 4).flatMap (leBytes 4) else [])

/-- Reply slots written at Head, which moves on. -/
def writeReply (s : State) (c : Cmd) (r : Reply) : State :=
  let bs := replySlots c r
  s.updWin c.call.win (fun w =>
    { w with head := (w.head + bs.length / 32) % 2 ^ 32,
             area := Mem.write (Mem.write w.area (replyAt w.head) (bs.take 32))
               (if r.long then replyAt (w.head + 1) else replyAt w.head) (if r.long then bs.drop 32 else bs.take 32) })

/-- The commands whose final reply is due at a boundary (R414): completed before it, and not collected at it. -/
def State.answered (s : State) (t : Nat) : List Nat :=
  (s.cmds.filter (fun c => decide (c.collected < t) && (match c.reply with | some r => decide (r.stamp < t) | none => false))).map
    (fun c => c.id)

/-- Final replies posted in collection order, then interim replies where a slot is left (R414). -/
def postReplies (s : State) (t : Nat) (due : List Nat) : State :=
  let s1 := s.cmds.foldl (fun (st : State) c =>
    match c.reply with
    | some r =>
      if due.contains c.id then { writeReply st c r with cmds := st.cmds.filter (fun x => x.id != c.id) } else st
    | none => st) s
  s1.cmds.foldl (fun (st : State) c =>
    if c.collected < t ∧ c.interim = false then
      let st1 : State := { st with cmds := st.cmds.map (fun (x : Cmd) => if x.id = c.id then { x with interim := true } else x) }
      if 1 ≤ st1.replyRoom c.call.win then writeReply st1 c { status := stPending, stamp := t } else st1
    else st) s1

/-! ### Registers (R403 to R408) -/

/-- An uncorrectable error, or a lost flit, in the last 16,384 ticks (R381). -/
def recentLoss (s : State) (t : Nat) : Bool × Bool :=
  (s.ctls.any (fun c => c.2.lastUncorrectable != 0 && decide (t ≤ c.2.lastUncorrectable + 16384 * mt)),
   s.links.any (fun l => match l.2.lostAt with | some x => decide (t ≤ x + 16384 * mt) | none => false))

/-- The hottest compute-die junction, in °C. -/
def hottest (s : State) : Nat := s.power.dieTemps.foldl max 0

/-- PLUMB_STATUS, PLUMB_DETAIL and HEALTH_SUMMARY at a boundary, beside what a start fixes (R404 to R407). -/
def globalRegs (s : State) (t : Nat) : SMap Nat :=
  let p := s.plumb
  let mode := if s.start.stage = .service then 3 else if s.failed then 2 else if s.lostDies.isEmpty then 0 else 1
  let loss := recentLoss s t
  let status := packMsb [(48, frameOf t), (4, p.hop), (3, p.state.code), (7, p.source), (2, 0)]
  let detail := packMsb [(48, if p.state = .holdover then p.deadline else 0), (16, (BitVec.ofInt 16 p.src.err).toNat)]
  let health := packMsb [(8, s.health.risk), (8, s.health.threshold), (2, mode), (5, bitsToNat ((List.range 5).map s.dieUp)),
    (4, min 15 ((activeAlarms s).filter id).length), (8, min 255 (hottest s)), (8, min 255 (s.power.inlet / 10)),
    (1, b2n loss.1), (1, b2n loss.2), (19, 0)]
  SMap.set (SMap.set (SMap.set (openRegs s) 0x20 status) 0x28 detail) 0x30 health

/-- The registers brought up to date at a boundary (R403). -/
def updateRegs (s : State) (t : Nat) : State :=
  { s with
    regs := globalRegs s t
    wins := s.wins.map (fun e => (e.1, { e.2 with
      shownHead := e.2.head
      shownStatus := packMsb [(32, e.2.expected), (1, b2n e.2.isOpen), (4, if e.1 = 0 then 15 else e.1 - 1), (20, 0),
                              (7, s.outstanding e.1)] })) }

/-- The next tick boundary that a packet can still meet: MANAGEMENT_TICK has not carried it out (R49, R413). -/
def State.nextTick (s : State) : Nat :=
  let t := roundUp s.now mt
  if s.tickAt = some t then t + mt else t

/-- A version whose weights had all been copied before this tick boundary is in place (R286): it supersedes the earlier ones of its set
(R287), and its EXPERT_LOAD completes. -/
def placeVersion (s : State) (jid : Nat) (x : ExpertVersion) : State :=
  if (match x.copiedAt with | some t => decide (t < s.now) | none => false) && !x.inPlace then
    let s1 := s.updServe jid (fun v => { v with versions := v.versions.map (fun (y : ExpertVersion) =>
      if y.set = x.set ∧ y.version = x.version then { y with inPlace := true }
      else if y.set = x.set ∧ y.version < x.version then { y with retiring := true } else y) })
    match s1.cmds.find? (fun c => c.works 0x0601 jid && c.waiting && c.call.par 2 1 == x.set) with
    | some c => s1.answer (fun y => y.id == c.id) (fun _ => { s1.reply stOk with words := [x.version] })
    | none => s1
  else s

/-- The expert versions of every job at the clock's tick boundary (R286). -/
def settleExperts (s : State) : State :=
  s.jobs.foldl (fun (st : State) e => (st.serve e.1).versions.foldl (fun (x : State) v => placeVersion x e.1 v) st) s

/-- The clock moved to the next tick boundary, where experts are in place before a packet is collected. -/
def State.toTick (s : State) : State := settleExperts ((s.settle s.nextTick).advance s.nextTick)

/-! ### What a handler answers -/

/-- A command that completes: its effects hold from the next frame (R49, R50). -/
def okReply (s : State) (words : List Nat) : Option Reply := some { status := stOk, stamp := nextFrame s.now, words := words }
/-- The same with a long reply. -/
def okLong (s : State) (words : List Nat) : Option Reply :=
  some { status := stOk, stamp := nextFrame s.now, long := true, words := words }
/-- A refusal at step 6 of R415. -/
def refuse (s : State) (c : Cmd) (status : Nat) (words : List Nat := []) : State × Option Reply :=
  (s, some { status := status, stamp := c.collected, words := words })

/-- A number as two result words. -/
def twoWords (n : Nat) : List Nat := [n % 2 ^ 32, n / 2 ^ 32 % 2 ^ 32]

/-- Bytes as result words. -/
def wordsOf (bs : List Byte) : List Nat := (List.range (bs.length / 4)).map (fun i => leAt bs (4 * i) 4)

/-- Bytes written to the output area of a command's window (R402). -/
def State.output (s : State) (c : Cmd) (off : Nat) (bs : List Byte) : State :=
  s.updWin c.call.win (fun w => { w with area := Mem.write w.area (outputArea + off) bs })

end Sys2Proof.Machine
end

