-- ==== Sys2Proof/Machine/PartOps.lean ====
section
/-!
DEFINITION. Sys2Proof/Machine/PartOps.lean: what the partition commands (R316 to R318, R334, R335, R420) and the image
commands (R61, R419) do.
-/
namespace Sys2Proof.Machine

/-! ### Partitions -/

/-- The other partitions that are not FREE, and what a PART_SET_SLICE at work will give them (R318). -/
def othersOf (s : State) (p : Nat) : List Part :=
  (s.parts.filter (fun e => e.1 != p && e.2.state != .free) ++ (pendingSlices s).filter (fun e => e.1 != p)).map (fun e => e.2)

/-- Two windows share memory. -/
def Window.overlaps (a b : Window) : Bool := meets (a.base, a.len) (b.base, b.len)

/-- Grants of two partitions obey R322: only pooled ones may overlap. -/
def grantsOk (a b : Part) : Bool :=
  (a.pooled && b.pooled) || (a.grant1 &&& b.grant1 == 0 && a.grant2 &&& b.grant2 == 0 && a.grantDie &&& b.grantDie == 0
    && a.grantLath &&& b.grantLath == 0)

/-- A partition's resources can be given to it (R318): tiles of dies in service that no other partition has, windows that
overlap no other's and are clear of the module area, and grants that obey R322. -/
def partFits (s : State) (p : Nat) (new : Part) : Bool :=
  ((List.range 60).filter (bitOf new.tiles)).all (fun t => s.dieUp (t / 12) && (othersOf s p).all (fun q => !bitOf q.tiles t))
    && new.windows.all (fun w => (othersOf s p).all (fun q => !w.2.overlaps (SMap.getD {} ((q.whole.map (fun x => x.2)).getD q.windows) w.1))
        && (w.1 % 2 == 0 || !w.2.overlaps { base := 255, len := 1 }))
    && (othersOf s p).all (grantsOk new)

/-- Tier-1 memory of the windows is still being cleared (R174). -/
def stillClearing (s : State) (new : Part) : Bool :=
  new.windows.any (fun w => w.1 % 2 == 0 && s.clearing.any (fun r => r.1 == w.1 / 2 && meets (w.2.base, w.2.len) r.2))

/-- 256 random bits as bytes, and the state that has drawn them (log 9). -/
def State.random (s : State) : List Byte × State := (leBytes 32 (Config.random s.draws), { s with draws := s.draws + 1 })

/-- PART_CREATE (R318). -/
def doPartCreate (s : State) (c : Cmd) : State × Option Reply :=
  let p := leAt c.block 0 1
  let new : Part := { ({} : Part).withBlock c.block with state := .open_, privileged := bitOf (leAt c.block 2 1) 0 }
  if (s.part p).state ≠ .free then refuse s c stNoResource
  else if !partFits s p new then refuse s c stNoResource
  else if stillClearing s new then refuse s c stNotReady
  else
    let k1 := s.random
    let k2 := k1.2.random
    let s1 : State := { k2.2 with
      parts := SMap.set s.parts p { new with keys := k1.1 ++ k2.1 }
      wins := SMap.set s.wins (p + 1) (partitionWindow p) }
    (s1, okReply s1 [])

/-- PART_DESTROY (R318, R335): OPEN or SEALED moves to CLOSING, every context is withdrawn. -/
def doPartDestroy (s : State) (c : Cmd) : State × Option Reply :=
  let p := c.call.par 0 1
  match (s.part p).state with
  | .free => refuse s c stDenied
  | _ =>
    let s1 := s.updPart p (fun x => { x with state := .closing })
    (((s1.jobsOf p).foldl (fun (st : State) e => withdraw st e.1 none true) s1).plan (nextFrame s.now) .parts, none)

/-- PART_SEAL (R318, R418). -/
def doPartSeal (s : State) (c : Cmd) : State × Option Reply :=
  let p := c.call.par 0 1
  match (s.part p).state with
  | .open_ | .sealed => let s1 := s.updPart p (fun x => { x with state := .sealed }); (s1, okReply s1 [])
  | _ => refuse s c stDenied

/-- PART_SET_SLICE (R318, R334, R335). -/
def doPartSetSlice (s : State) (c : Cmd) : State × Option Reply :=
  let p := leAt c.block 0 1
  let old := s.part p
  let new := old.withBlock c.block
  if bitOf (leAt c.block 2 1) 0 != old.privileged then refuse s c stBadParam
  else if old.state ≠ .open_ then refuse s c stDenied
  else if !partFits s p new then refuse s c stNoResource
  else if stillClearing s new then refuse s c stNotReady
  else
    (((s.jobsOf p).foldl (fun (st : State) e => if sliceHits old new e.2 then withdraw st e.1 none false else st) s).plan
      (nextFrame s.now) .parts, none)

/-! ### Images -/

/-- The file that IMAGE_LOAD names: none where its source is absent (R6, R419). -/
def imageFile (s : State) (c : Call) : Option (List Byte) :=
  if c.par 0 1 = 0 then some (Mem.read s.hub (stagingAt c.pid + c.par 8 8) (c.par 16 8))
  else if s.drive.present then some (Mem.read s.drive.ns1 (c.par 8 8) (c.par 16 8))
  else none

/-- IMAGE_LOAD (R61, R418, R419): the image takes the lowest free handle (log 122). -/
def doImageLoad (s : State) (c : Cmd) : State × Option Reply :=
  let p := c.call.pid
  match imageFile s c.call with
  | none => refuse s c stNotReady
  | some f =>
    let v := verdict s p f
    if v.1 ≠ 0 then refuse s c v.1 (if v.1 = stDenied then [] else [v.2])
    else
      match (List.range 16).find? (fun h => (s.image p h).isNone) with
      | none => refuse s c stNoResource
      | some h =>
        let i := imageOf p f
        let s1 : State := { s with images := s.images ++ [{ i with handle := h }] }
        (s1, okLong s1 ([h, 0, 0, 0] ++ wordsOf (i.digest.take 32)))

/-- IMAGE_UNLOAD (R419). -/
def doImageUnload (s : State) (c : Cmd) : State × Option Reply :=
  let p := c.call.pid
  let h := c.call.par 0 1
  if s.jobs.any (fun e => e.2.part == p && e.2.handle == h) then refuse s c stDenied
  else
    let s1 : State := { s with images := s.images.filter (fun i => !(i.part == p && i.handle == h)) }
    (s1, okReply s1 [])

end Sys2Proof.Machine
end

