-- ==== Sys2Proof/Machine/Placement.lean ====
section
/-!
DEFINITION. Sys2Proof/Machine/Placement.lean: contexts classed and placed at a tick boundary (R326 to R331), and the phases
of a context switch (R332, R333).
-/
namespace Sys2Proof.Machine

/-! ### Rates and phases (R332) -/

/-- Bytes that a grant moves in one frame on a die's four controllers, nothing else claiming slots (R163, R164, R332). -/
def rateOf (grant : Nat) (tier2 : Bool) : Nat :=
  64 * 4 * ((List.range 1024).filter (fun c => usable tier2 c && granted grant c)).length * (if tier2 then 64 else 544)

/-- Whole frames that some bytes take at a rate per frame. -/
def framesAt (bytes rate : Nat) : Nat := if bytes = 0 then 0 else max 1 (ceilDiv bytes (max 1 rate))

/-- Image tiles of a job on a die. -/
def tilesOn (s : State) (j : Job) (die : Nat) : Nat := ((s.jobTiles j).filter (fun t => t / 12 == die)).length

/-- The jobs of a list that are still there. -/
def State.some_ (s : State) (l : List Nat) : List (Nat × Job) := l.filterMap (fun i => (s.job i).map (fun j => (i, j)))

/-- The running body of a job claims slots of a die's controllers (R163, R164, R332): a program there fetches from memory or names a
bucket, or a bucket is homed there. -/
def claimsSlots (s : State) (j : Job) (die : Nat) : Bool :=
  match s.jobImage j with
  | none => false
  | some i =>
    (i.programs j.body).any (fun p => p.1 / 12 == die &&
        (records p.2).any (fun w => [2, 5, 8].contains (bitsOf w 95 92)))
      || (homedBuckets i j.body).any (fun b => b.die == die)

/-- A context that stays resident on a die while others leave it, whose image claims slots there, and whose slots a partition's grant
covers too (R324, R332). -/
def staysOn (s : State) (pid die : Nat) (outgoing : List Nat) (e : Nat × Job) : Bool :=
  e.2.resident && !outgoing.contains e.1 && e.2.binding.any (fun b => b.2 / 12 == die) && claimsSlots s e.2 die
    && (e.2.part == pid || (s.part e.2.part).grant1 &&& (s.part pid).grant1 != 0 || (s.part e.2.part).grant2 &&& (s.part pid).grant2 != 0)

/-- What is left of a full rate where contexts that stay claim slots: the spec does not say how claims that differ from one slot
period to the next make one rate, so it is a free value from 1 to the full rate (log 98). -/
def restRate (full : Nat) (x : BitVec 64) : Nat := full - x.toNat % max 1 full

/-- The rates of a switch, tier 1 and tier 2 on each die, as they are fixed at its decision (R332): the full rates of the grants
where no context stays on the die. -/
def switchRates (s : State) (pid : Nat) (outgoing : List Nat) : List (Nat × Nat) × State :=
  (List.range 5).foldl (fun (acc : List (Nat × Nat) × State) die =>
    let full1 := rateOf (s.part pid).grant1 false
    let full2 := rateOf (s.part pid).grant2 true
    if s.jobs.any (staysOn s pid die outgoing) then
      let a := acc.2.draw
      let b := a.2.draw
      (acc.1 ++ [(restRate full1 a.1, restRate full2 b.1)], b.2)
    else (acc.1 ++ [(full1, full2)], acc.2)) ([], s)

/-- The frames of a phase of a switch on a die (R332): Save 0, Write-back 1, Scrub 2, Fill 3, Restore 4. -/
def phaseFrames (s : State) (w : Switch) (die phase : Nat) : Nat :=
  let r1 := (w.rates.getD die (0, 0)).1
  let r2 := min r1 (w.rates.getD die (0, 0)).2
  let out := s.some_ w.outgoing
  let held := out.foldl (fun n e => n + tilesOn s e.2 die) 0
  match phase with
  | 0 => framesAt (dustShare * held) r1
  | 1 => framesAt (out.foldl (fun n e => n + (match e.2.overlay with | some o => if o.writable then o.len else 0 | none => 0)) 0) r2
  | 2 => if held = 0 then 0 else 1
  | 3 =>
    match s.job w.incoming with
    | some j => if needsFill s j w.incoming die then framesAt ((j.overlay.map (fun o => o.len)).getD 0) r2 else 0
    | none => 0
  | 4 =>
    match s.job w.incoming with
    | some j => if j.everResident then framesAt (dustShare * tilesOn s j die) r1 else 0
    | none => 0
  | _ => 0

/-- The first phase of a die from one on that takes frames, 5 when none is left. -/
def phaseFrom (s : State) (w : Switch) (die n : Nat) : Nat :=
  ((List.range 5).find? (fun k => decide (n ≤ k) && phaseFrames s w die k != 0)).getD 5

/-- What a phase does on a die (R321, R327, R328, R332). -/
def phaseWork (s : State) (w : Switch) (die phase : Nat) : State :=
  let out := s.some_ w.outgoing
  match phase with
  | 0 => out.foldl (fun (st : State) e => saveDie st e.2 die) s
  | 1 => out.foldl (fun (st : State) e => moveOverlay st e.2 e.1 die false) s
  | 2 => out.foldl (fun (st : State) e =>
      (e.2.binding.filter (fun b => b.1 / 12 == die)).foldl (fun (x : State) b => x.scrub b.2) st) s
  | 3 => match s.job w.incoming with | some j => moveOverlay s j w.incoming die true | none => s
  | _ =>
    match s.job w.incoming with
    | some j => (w.binding.filter (fun b => b.1 / 12 == die)).foldl (fun (st : State) b => loadTile st j w.incoming b.1 b.2) s
    | none => s

/-! ### A context takes its tiles -/

/-- Firmware of a serving job's lead module plans a step that is to begin at a stamp, and writes its control word (R76, R374). -/
def planStepAt (s : State) (jid at_ : Nat) : State :=
  match s.job jid with
  | none => s
  | some j =>
    let s1 := planStep s jid j.nextStep at_
    match (s1.serve jid).plans.find? (fun p => p.step == j.nextStep) with
    | some p => (writeControl s1 jid j.nextStep (isUpdate s1 j p.cls)).updJob jid (fun x => { x with nextAt := some at_ })
    | none => s1

/-- A multi-module job that is not ready at its first frame (R421): JOB_START is answered NOT_READY and nothing of the job
remains. -/
def lateStart (s : State) (jid : Nat) : State :=
  let s1 := s.answerJob 0x0301 jid (s.reply stNotReady)
  settleParts (releaseJob s1 jid)

/-- A job has passed its first frame without having run (R421). -/
def missedStart (s : State) (jid at_ : Nat) : Bool :=
  match s.job jid with
  | some j => s.multi j && j.attempt == 0 && decide (65536 * j.firstFrame < at_)
  | none => false

/-- The first step of a serving context that a switch brings in: its lead module's firmware plans it to begin where the switch
ends (R332). -/
def leadStarts (s : State) (jid at_ : Nat) : State :=
  match s.job jid with
  | none => s
  | some j =>
    if j.serve.isSome && j.replayRun.isNone && s.leads j && j.mode == .running && j.ready && j.resident && s.dataPlane then
      planStepAt s jid (max at_ (65536 * j.firstFrame))
    else s

/-- A switch whose last phase has ended: outgoing contexts are swapped out, the incoming one begins at the frame that
follows, and the record is kept (R326, R332, R333). -/
def finishSwitch (s : State) (w : Switch) (at_ : Nat) : State :=
  let s1 : State := { s with switches := s.switches.filter (fun x => x.incoming != w.incoming),
                             switchLog := (w :: s.switchLog).take 64 }
  let s2 := (s1.some_ w.outgoing).foldl (fun (st : State) e => st.updJob e.1 (fun x =>
    { x with resident := false, nextAt := none, leaving := none, blockedSince := none, waitingSince := none })) s1
  if missedStart s2 w.incoming at_ then lateStart s2 w.incoming 
  else leadStarts (takeTiles s2 w.incoming w.binding at_) w.incoming at_

/-- A switch replaced in the list. -/
def State.setSwitch (s : State) (w : Switch) : State :=
  { s with switches := s.switches.map (fun x => if x.incoming = w.incoming then w else x) }

/-- A switch's phases begin on every die at a stamp (R332). -/
def beginSwitch (s : State) (w : Switch) (at_ : Nat) : State :=
  let firsts := (List.range 5).map (fun die => (die, phaseFrom s w die 0))
  let w1 : Switch := { w with
    begun := true, now_ := firsts,
    phases := (firsts.filter (fun e => e.2 != 5)).map (fun e => (8 * e.1 + e.2, at_)) }
  if firsts.all (fun e => e.2 == 5) then finishSwitch s w1 at_ else s.setSwitch w1

/-- The phase that a die runs ends at a stamp, and its next begins (R332). -/
def endSwitchPhase (s : State) (w : Switch) (die at_ : Nat) : State :=
  let k := SMap.getD 5 w.now_ die
  let s1 := phaseWork s w die k
  let n := phaseFrom s1 w die (k + 1)
  let w1 : Switch := { w with
    now_ := SMap.set w.now_ die n
    phases := if n = 5 then w.phases else SMap.set w.phases (8 * die + n) at_ }
  if w1.now_.all (fun e => e.2 == 5) then finishSwitch s1 w1 at_ else s1.setSwitch w1

/-! ### Placement (R326 to R331) -/

/-- A context that is leaving in a switch under way. -/
def State.isLeaving (s : State) (jid : Nat) : Bool := s.switches.any (fun w => w.outgoing.contains jid)
/-- A context that is coming in a switch under way. -/
def State.isComing (s : State) (jid : Nat) : Bool := s.switches.any (fun w => w.incoming == jid)

/-- A context that this tick's placements have chosen to leave (R331). -/
def State.chosenNow (s : State) (jid : Nat) : Bool := s.switches.any (fun w => w.decided == s.now && w.outgoing.contains jid)

/-- Tiles of a slice on a die that a placement may use once the contexts in `gone` have left (R319, R331): dies in service, and no
tile that a change of slice is removing. -/
def openTiles (s : State) (pid : Nat) (gone : List Nat) (die : Nat) : List Nat :=
  if s.dieUp die then
    ((List.range 12).map (fun t => 12 * die + t)).filter (fun t =>
      s.holdsTile pid t
        && !(s.jobsOf pid).any (fun e => e.2.resident && !gone.contains e.1 && !s.chosenNow e.1 && e.2.binding.any (fun b => b.2 == t))
        && !s.switches.any (fun w => w.binding.any (fun b => b.2 == t)))
  else []

/-- The binding that the tiles of `free` give a job (R319), none where a die has too few. -/
def bindWith (s : State) (j : Job) (free : Nat → List Nat) : Option (SMap Nat) :=
  let imgs := s.jobTiles j
  let per (die : Nat) : List Nat := imgs.filter (fun t => t / 12 == die)
  if (List.range 5).all (fun die => decide ((per die).length ≤ (free die).length)) then
    some ((List.range 5).flatMap (fun die => (per die).zip (free die)))
  else none

/-- Tiles of a slice on a die that no resident context holds, one that is leaving among them, and that no switch binds (R319,
R329). -/
def freeTiles (s : State) (pid die : Nat) : List Nat :=
  (openTiles s pid [] die).filter (fun t => !(s.jobsOf pid).any (fun e => e.2.resident && e.2.binding.any (fun b => b.2 == t)))

/-- A resident context that is to stay has an overlay that overlaps a job's (R328). -/
def overlayBars (s : State) (jid : Nat) (j : Job) (gone : List Nat) : Bool :=
  (s.jobsOf j.part).any (fun e => e.1 != jid && e.2.resident && !gone.contains e.1 && overlaysMeet e.2 j)
    || s.switches.any (fun w => match s.job w.incoming with | some x => w.incoming != jid && overlaysMeet x j | none => false)

/-- The binding of a job once some contexts have left, if it can then be placed. -/
def placeable (s : State) (jid : Nat) (j : Job) (gone : List Nat) : Option (SMap Nat) :=
  if overlayBars s jid j gone then none else bindWith s j (openTiles s j.part gone)

/-- A context placed at the clock's tick boundary with some contexts to leave for it (R331, R332): at the next frame boundary where
nothing has to be moved (R49), else by a switch. -/
def place (s : State) (jid : Nat) (j : Job) (binding : SMap Nat) (out : List Nat) : State :=
  let r := switchRates s j.part out
  let w : Switch := { part := j.part, incoming := jid, outgoing := out, decided := s.now, binding := binding, rates := r.1 }
  let held := binding.any (fun b => (s.jobsOf j.part).any (fun e => e.2.resident && e.2.binding.any (fun x => x.2 == b.2)))
  let idle := (List.range 5).all (fun die => phaseFrom s w die 0 == 5)
  if out.isEmpty && !held && idle then
    { s with switches := s.switches ++ [{ w with begun := true, now_ := (List.range 5).map (fun die => (die, 5)) }] }.plan
      (nextFrame s.now) (.take jid)
  else
    let s1 : State := { r.2 with switches := s.switches ++ [w] }
    let s2 := out.foldl (fun (st : State) o => st.updJob o (fun x => { x with leaving := some (frameOf s.now + 1) })) s1
    if out.isEmpty && !held then beginSwitch s2 w (nextFrame s.now) else s2

/-- A swapped-out context has work (R330). A newly started context has it too: a replay job's, which begins PAUSED, and a serving
job's, which holds no entry yet. -/
def isRunnable (s : State) (jid : Nat) (j : Job) : Bool :=
  !j.resident && (j.mode == .running || (j.mode == .paused && j.replay && !j.everResident)) && !s.isComing jid && j.stop.isNone
    && (match j.serve with
        | some v => !s.leads j || (v.freePlace.isSome && (s.entries jid).any (fun e =>
            (e.2.state == .waiting || e.2.state == .prefill || e.2.state == .decode || e.2.state == .unparking)
              && !s.budgetHeld e.2)) || !j.everResident
        | none => true)

/-- A resident context is blocked (R330). -/
def isBlocked (s : State) (j : Job) : Bool :=
  j.resident && (j.mode == .paused || (match j.serve with | some v => s.leads j && v.emptyPlan | none => false))

/-- Blocked-since and waiting-since brought up to date at a tick boundary (R330). -/
def classContexts (s : State) (t : Nat) : State :=
  { s with jobs := s.jobs.map (fun e => (e.1, { e.2 with
      blockedSince := if isBlocked s e.2 then some (e.2.blockedSince.getD t) else none
      waitingSince := if isRunnable s e.1 e.2 then some (e.2.waitingSince.getD t) else none })) }

/-- Eviction candidates of a partition in order (R331): blocked contexts, then expired ones. -/
def candidates (s : State) (pid t : Nat) : List Nat :=
  let all := (s.jobsOf pid).filter (fun e => e.2.resident && !s.pinned e.2 && !s.isLeaving e.1)
  let blocked := all.filter (fun e => e.2.blockedSince.isSome)
  let expired := all.filter (fun e => e.2.blockedSince.isNone && decide (e.2.placedAt + (s.part pid).sliceLen * mt ≤ t))
  let early (a b : Nat × Job) (f : Job → Nat) : Bool := decide (f a.2 < f b.2) || (f a.2 == f b.2 && decide (a.1 ≤ b.1))
  ((sortBy (fun (a b : Nat × Job) => early a b (fun x => x.blockedSince.getD 0)) blocked)
    ++ (sortBy (fun (a b : Nat × Job) => early a b (fun x => x.placedAt)) expired)).map (fun e => e.1)

/-- The fewest of the candidates, taken in order, that let a job be placed. -/
def evictFor (s : State) (jid : Nat) (j : Job) (cand : List Nat) : Option (List Nat × SMap Nat) :=
  ((List.range (cand.length + 1)).filterMap (fun n => (placeable s jid j (cand.take n)).map (fun b => (cand.take n, b)))).head?

/-- Every runnable context placed that can be, earliest waiting first (R331). -/
def placeContexts (s : State) (t : Nat) : State :=
  let s1 := classContexts s t
  let queue := sortBy (fun (a b : Nat × Job) =>
      let wa := a.2.waitingSince.getD 0
      let wb := b.2.waitingSince.getD 0
      decide (wa < wb) || (wa == wb && decide (a.1 ≤ b.1))) (s1.jobs.filter (fun e => e.2.waitingSince.isSome))
  queue.foldl (fun (st : State) e =>
    match st.job e.1 with
    | some j =>
      match evictFor st e.1 j (candidates st j.part t) with
      | some (out, b) => place st e.1 j b out
      | none => st
    | none => st) s1

end Sys2Proof.Machine
end

