-- ==== Sys2Proof/Machine/JobOps.lean ====
section
/-!
DEFINITION. Sys2Proof/Machine/JobOps.lean: what the job commands do: JOB_START, JOB_PAUSE, JOB_RESUME, JOB_STOP and STEP_REPLAY
(R63, R72, R82, R226, R244, R247, R248, R254, R311, R326 to R329, R334, R352, R392, R396, R397, R421, R422).
-/
namespace Sys2Proof.Machine

/-! ### Links (R72, R82, R352, R421) -/

/-- The links of LATH_SLOTS that fail a test, the lowest. -/
def lowestFailing (ls : List (Nat × Nat × Nat)) (bad : Nat × Nat × Nat → Bool) : Option Nat :=
  firstMin (fun a b => decide (a ≤ b)) ((ls.filter bad).map (fun e => e.1))

/-- Reasons 2, 1 and 3 of R421, in that order: the first that fails, with its link where one of this module is concerned. The notice
path over a link is its delay, one send period and a free rest (log 61). -/
def linkReason (s : State) (i : Image) (body : Nat) : Option (Nat × Option Nat) :=
  let ls := lathLinks (i.data body 4)
  let dig := digestHead i.digest
  let elsewhere := if i.flag 3 && decide (i.field 0x14 4 < Config.noticeElsewhere dig) then some (3, none) else none
  if !i.flag 2 then elsewhere
  else
    match lowestFailing ls (fun e =>
        let l := s.link e.1
        l.state != .active || l.timeClass != .common || decide (l.width < e.2.1 + 1)) with
    | some l => some (2, some l)
    | none =>
      match lowestFailing ls (fun e => decide (e.2.2 < (s.link e.1).delay + 64)) with
      | some l => some (1, some l)
      | none =>
        match lowestFailing ls (fun e => decide (i.field 0x14 4 < (s.link e.1).delay + 1024 + Config.noticeRest dig e.1)) with
        | some l => some (3, some l)
        | none => elsewhere

/-- A NO_RESOURCE reply with its reason and a link, or all ones (R421). -/
def reasonReply (s : State) (c : Cmd) (reason : Nat) (link : Option Nat) : State × Option Reply :=
  refuse s c stNoResource [reason, link.getD (2 ^ 32 - 1)]

/-! ### Ownership, result areas, stores -/

/-- A controller's number from a bucket (R245). -/
def BucketEntry.home (b : BucketEntry) : Nat := 4 * b.die + b.ctl

/-- The ownership entries of a job (R248): by controller, the MiB that hold the accumulators homed there. -/
def ownEntries (i : Image) (body pid quota : Nat) : SMap OwnEntry :=
  let bs := homedBuckets i body
  let mib := 2 ^ 20
  ((bs.map BucketEntry.home).eraseDups).foldl (fun (m : SMap OwnEntry) c =>
    let mine := bs.filter (fun b => b.home == c)
    let lo := mine.foldl (fun n b => min n (32 * b.acc)) (2 ^ 64)
    let hi := mine.foldl (fun n b => max n (32 * b.acc + 8 * b.elements)) 0
    SMap.set m c { part := pid, quota := quota, base := lo / mib, length := ceilDiv hi mib - lo / mib }) []

/-- The carry quotas of every controller stay within 64 (R248). -/
def quotasFit (s : State) (es : SMap OwnEntry) : Bool :=
  es.all (fun e => decide (e.2.quota + ((s.ctl e.1).own.foldl (fun n o => n + o.2.quota) 0) ≤ 64))

/-- Bytes of one result place, by the largest batch bound among the image's classes, of every body (R311). -/
def placeSize (i : Image) : Nat :=
  roundUp (64 + 16 * ((i.sections.filter (fun x => x.type == 8)).flatMap (fun x => shapeClasses x.data)).foldl (fun n c => max n c.seqs) 0)
    4096

/-- The lowest offset of a partition's result region at which some bytes are free (R311). -/
def resultRoom (s : State) (pid bytes : Nat) : Option Nat :=
  let used := (s.jobsOf pid).filterMap (fun e => e.2.serve.map (fun v => (v.base, v.places * v.placeBytes)))
  let starts := sortBy (fun (a b : Nat) => decide (a ≤ b)) (0 :: used.map (fun u => u.1 + u.2))
  starts.find? (fun b => decide (b + bytes ≤ 4 * gib) && !used.any (fun u => meets (b, bytes) u))

/-! ### JOB_START (R421) -/

/-- A job as its block gives it. -/
def newJob (s : State) (c : Cmd) (i : Image) : Job :=
  let b := c.block
  let f := leAt b 6 2
  let body := s.bodyToRun
  let interval := leAt b 0x14 4
  let serving := serves i.kind
  { part := c.call.pid, handle := leAt b 0 4, body := body, kind := i.kind, resident := false
    mode := if bitOf f 1 then .paused else .running
    frames := i.field 0x10 4, notice := i.field 0x14 4
    pin := bitOf f 0, replay := bitOf f 1, applyNan := bitOf f 2, ready := !bitOf f 3
    dust := if bitOf f 5 then some ((List.range 5).map (fun die => leAt b (0x28 + 8 * die) 8)) else none
    overlay := if leAt b 0x60 8 = 0 then none
      else some { tier1 := 32 * leAt b 0x50 8, tier2 := 32 * leAt b 0x58 8, len := leAt b 0x60 8, writable := bitOf f 6 }
    firstFrame := leAt b 8 8, buddies := [leAt b 0x18 2, leAt b 0x1A 2]
    interval := if interval = 2 ^ 32 - 1 then 8583069 else interval
    lowest := !i.flag 3 || Config.noLower (digestHead i.digest)
    serve := if serving then some { places := leAt b 0x1C 4, placeBytes := placeSize i, policy := leAt b 0x20 8 } else none }

/-- A dust sheet and an overlay lie in the partition's windows (R327, R328). -/
def sheetsFit (s : State) (j : Job) (i : Image) : Bool :=
  let p := s.part j.part
  (List.range 5).all (fun die =>
    let n := ((i.tiles j.body).filter (fun t => t / 12 == die)).length
    (n == 0 || (match j.dust with
      | some d => (p.windowAddr die false (32 * d.getD die 0) (dustShare * n)).isSome
      | none => true))
    && (!s.dieUp die || (match j.overlay with
      | some o => (p.windowAddr die false o.tier1 o.len).isSome && (p.windowAddr die true o.tier2 o.len).isSome
      | none => true)))

/-- Reason 5 of R421: contexts or tiles are lacking (R62, R326 to R329); a pinned context's tiles have to be free at once. -/
def lacksRoom (s : State) (j : Job) (i : Image) : Bool :=
  decide (16 ≤ (s.jobsOf j.part).length) || !i.bodies.contains j.body || !sheetsFit s j i
    || (List.range 5).any (fun die => decide ((sliceTiles (s.part j.part) die).length < ((i.tiles j.body).filter (fun t => t / 12 == die)).length))
    || (s.pinned j && (bindWith s j (freeTiles s j.part)).isNone)

/-- The catalogue entry that a job's start or restore names (R388, R396, R400): of the job itself; in a replay job or a job of kind 5, of
any job whose places the partition can read. -/
def namedSnapshot (s : State) (j : Job) (jid number : Nat) (checkpoint : Bool) : Option CatEntry :=
  match s.catEntry j.part jid number checkpoint with
  | some e => some e
  | none =>
    if j.replay || j.kind == 5 then
      (s.catalogue.find? (fun e => e.number == number && e.checkpoint == checkpoint && s.reads j.part e)).bind (fun e =>
        s.catEntry j.part e.job number checkpoint)
    else none

/-- JOB_START (R421): reasons 4, 5, 6, 7, 2, 1 and 3 in that order, then the job begins: it is runnable, and waits for the placements
of the tick (R330, R331). -/
def doJobStart (s : State) (c : Cmd) : State × Option Reply :=
  let b := c.block
  let f := leAt b 6 2
  let jid := leAt b 4 2
  let quota := Config.carryQuota % 65
  match s.image c.call.pid (leAt b 0 4) with
  | none => refuse s c stStale
  | some i =>
    let j0 := newJob s c i
    let own := ownEntries i j0.body j0.part quota
    let start := frameOf s.now + (if serves i.kind then 16 else 1)
    let room := match j0.serve with
      | some v => resultRoom s j0.part (v.places * v.placeBytes)
      | none => some 0
    if bitOf f 1 && !bitOf f 3 then refuse s c stBadParam
    else if s.quiesce ≠ .none ∨ (s.part j0.part).state = .closing ∨ (s.number = none ∧ i.flag 2 = true) then refuse s c stDenied
    else if (s.job jid).isSome then reasonReply s c 4 none
    else if lacksRoom s j0 i then reasonReply s c 5 none
    else if !quotasFit s own then reasonReply s c 6 none
    else
      match room, linkReason s i j0.body with
      | none, _ => reasonReply s c 7 none
      | some _, some (r, l) => reasonReply s c r l
      | some base, none =>
        let snap := namedSnapshot s j0 jid (leAt b 0x10 4) (bitOf f 4)
        if bitOf f 3 && (snap.isNone || (bitOf f 4 && !s.drive.present)) then refuse s c stNotReady
        else if i.flag 3 && decide (j0.firstFrame < start) then refuse s c stNotReady
        else
          let j : Job := { j0 with
            serve := j0.serve.map (fun v => { v with base := base })
            restoring := if bitOf f 3 then snap.map (fun e => (j0.part, e.job, e.number, e.checkpoint)) else none
            intervalEnd := if j0.interval = 0 then none else some (s.now + j0.interval * mt)
            waitingSince := some s.now }
          let s1 := takePrefix (s.setJob jid j) jid
          let s2 := own.foldl (fun (st : State) e => st.updCtl e.1 (fun x => { x with own := SMap.set x.own jid e.2 })) s1
          (s2.plan (nextFrame s.now) (.zero jid (!bitOf f 3)), none)

/-! ### JOB_PAUSE, JOB_RESUME, JOB_STOP -/

/-- JOB_PAUSE (R63, R418, R419): at the next step boundary from the frame after collection on. -/
def doJobPause (s : State) (c : Cmd) : State × Option Reply :=
  let jid := c.call.par 0 2
  match s.job jid with
  | none => refuse s c stStale
  | some j =>
    let frame := frameOf s.now + 1
    if j.mode = .paused then (s, okReply s (twoWords j.nextStep))
    else if j.mode ≠ .running then (s, none)
    else if j.busyBefore frame then (s.updJob jid (fun x => { x with pauseAsk := some (min frame (x.pauseAsk.getD frame)) }), none)
    else (pauseJob (dropPlans s jid none).1 jid, none)

/-- A job's next step falls due at a stamp, where its context is resident and the data plane runs; a serving job's lead module
has to plan it first. -/
def arm (s : State) (jid at_ : Nat) : State :=
  s.updJob jid (fun j => { j with
    nextAt := if j.resident && j.ready && j.leaving.isNone && s.dataPlane && (j.serve.isNone || j.replayRun.isSome || !s.leads j) then some at_ else none })

/-- JOB_RESUME (R40, R352, R392, R418, R421). A context that is in its rest frames begins its next step no earlier than their end
(R460), and links that have trained again carry what the job sends (R352). -/
def doJobResume (s : State) (c : Cmd) : State × Option Reply :=
  let jid := c.call.par 0 2
  let target := c.call.par 8 8
  let number := c.call.par 16 4
  let start := frameOf s.now + 1
  let first := c.call.par 24 8
  match s.job jid with
  | none => refuse s c stStale
  | some j =>
    match s.jobImage j with
    | none => refuse s c stDenied
    | some i =>
      if j.mode ≠ .paused ∨ j.replay = true ∨ s.quiesce ≠ .none then refuse s c stDenied
      else if s.plumb.state = .unlocked ∨ s.plumb.state = .acquiring ∨ s.plumb.state = .fenced then refuse s c stNotReady
      else if (match j.restored with | some r => r.2.2 != number | none => false)
          || !(target == j.u || (target == j.u + 1 && j.sealed)) then refuse s c stDenied
      else
        match linkReason s i j.body with
        | some (r, l) => reasonReply s c r l
        | none =>
          let s1 := if target = j.u then s else s.plan (nextFrame s.now) (.lateCommit jid)
          let s2 := (s1.plan (nextFrame s.now) (.zero jid false)).updJob jid (fun x => { x with
            mode := .running, restored := none, abandonRow := 0, firstFrame := first, pauseAsk := none, barred := [], restUntil := none })
          (arm s2 jid (max (65536 * max first start) (j.restUntil.getD 0)), none)

/-- JOB_STOP (R334, R418). -/
def doJobStop (s : State) (c : Cmd) : State × Option Reply :=
  let last := c.call.par 8 8
  (withdraw s (c.call.par 0 2) (if last = 2 ^ 64 - 1 then none else some last) true, none)

/-! ### STEP_REPLAY (R396, R397, R422) -/

/-- Concatenated step records cut at their lengths (R394, R422). -/
def cutRecords : Nat → List Byte → List (List Byte)
  | 0, _ => []
  | fuel + 1, bs =>
    let n := leAt bs 0x50 8
    if bs.length < 128 ∨ n < 128 ∨ bs.length < n then [] else bs.take n :: cutRecords fuel (bs.drop n)

/-- The last original record of every step whose outcome is 0 (R397). -/
def originals (rs : List (List Byte)) : SMap (List Byte) :=
  rs.foldl (fun (m : SMap (List Byte)) r => if leAt r 0x1C 1 = 0 then SMap.set m (leAt r 0 8) r else m) []

/-- The original step records that a replay reads: of the job whose snapshot was restored, in the module area; or the
parameter block (R396). -/
def replaySource (s : State) (c : Cmd) (j : Job) : List (List Byte) :=
  if leAt c.block 3 1 = 1 then
    let bs := Mem.read (s.win c.call.win).area (paramArea + leAt c.block 0x28 4) (32 * leAt c.block 0x2C 4)
    cutRecords bs.length bs
  else
    match j.restored with
    | some (p, k, _) =>
      (s.kept.filter (fun e => e.1 == p && e.2.1 == k)).map (fun e => e.2.2.record)
        ++ (match s.job k with | some x => if x.part = p then x.records.map (fun r => r.record) else [] | none => [])
    | none => []

/-- The packets accepted on time in the original steps, by step, as their reports in the module area count them (R268, R395, R398). -/
def replayCounts (s : State) (c : Cmd) (j : Job) : SMap Nat :=
  if leAt c.block 3 1 = 1 then []
  else
    match j.restored with
    | some (p, k, _) =>
      ((s.kept.filter (fun e => e.1 == p && e.2.1 == k)).map (fun e => e.2.2)
        ++ (match s.job k with | some x => if x.part = p then x.records else [] | none => [])).foldl (fun (m : SMap Nat) r =>
          if r.outcome = 0 ∧ leAt r.report 0x1F 1 = 1 then SMap.set m r.step (leAt r.report (r.report.length - 4) 4) else m) []
    | none => []

/-- STEP_REPLAY (R396, R397). -/
def doStepReplay (s : State) (c : Cmd) : State × Option Reply :=
  let b := c.block
  let jid := leAt b 0 2
  match s.job jid with
  | none => refuse s c stStale
  | some j =>
    let p := s.part j.part
    let area := 32 * leAt b 0x18 8
    let len := leAt b 0x20 8
    if j.replay = false ∨ j.mode ≠ .paused ∨ j.ready = false ∨ s.quiesce ≠ .none then refuse s c stDenied
    else if leAt b 8 8 ≠ j.nextStep ∨ (leAt b 2 1 ≠ 0 ∧
        ((List.range 5).all (fun die => !s.dieUp die || (p.windowAddr die true area len).isSome)) = false) then
      refuse s c stBadParam
    else
      let x : ReplayRun := { last := leAt b 0x10 8, trace := leAt b 2 1, source := originals (replaySource s c j),
                             accepted := replayCounts s c j,
                             excluded := (List.range (leAt b 4 1)).map (fun i => leAt b (0x40 + 2 * i) 2),
                             area := area, areaLen := len }
      match replayNext x j.nextStep with
      | none => (s, okReply s [0])
      | some n =>
        let s1 := s.updJob jid (fun y => { y with mode := .running, nextStep := n, replayRun := some x })
        (arm s1 jid (nextFrame s.now), none)

end Sys2Proof.Machine
end

