-- ==== Sys2Proof/Machine/SnapOps.lean ====
section
/-!
DEFINITION. Sys2Proof/Machine/SnapOps.lean: what the snapshot commands do, and restores, checkpoints and re-maps (R373 to
R379, R385, R386, R388 to R390, R396, R400, R401).
-/
namespace Sys2Proof.Machine

/-! ### The commands -/

/-- SNAP_TAKE (R373, R379, R418). A job without a manifest cannot be snapshotted (R370). -/
def doSnapTake (s : State) (c : Cmd) : State × Option Reply :=
  let jid := c.call.par 0 2
  let ckpt := bitOf (c.call.par 2 1) 0
  match s.job jid with
  | none => refuse s c stStale
  | some j =>
    if !s.hasManifest j then refuse s c stNoResource
    else if ckpt && !s.drive.present then refuse s c stNotReady
    else (askCapture s jid ckpt, none)

/-- SNAP_RESTORE (R6, R388, R401). -/
def doSnapRestore (s : State) (c : Cmd) : State × Option Reply :=
  let src := c.call.par 0 2
  let jid := c.call.par 8 2
  let ckpt := bitOf (c.call.par 2 1) 0
  match s.job jid with
  | none => refuse s c stStale
  | some j =>
    let shares := (s.job src).any (fun k => k.resident && k.binding.any (fun b => j.binding.any (fun x => x.2 == b.2)))
    if src ≠ jid ∧ ((s.part j.part).privileged = false ∨ j.kind ≠ 5 ∨ ckpt = true ∨ s.pinned j = false ∨ shares = true) then
      refuse s c stDenied
    else if !(j.mode == .paused || j.mode == .halted || j.mode == .remapping) then refuse s c stDenied
    else if j.mode == .halted && s.lostDies.any (touches s j) then refuse s c stDeviceFault
    else
      match (if ckpt && !s.drive.present then none else s.catEntry j.part src (c.call.par 4 4) ckpt) with
      | none => refuse s c stNotReady
      | some e => (s.updJob jid (fun x => { x with restoring := some (j.part, e.job, e.number, e.checkpoint), ready := false }), none)

/-- SNAP_VERIFY (R6, R390): the work ends with RESTORE_VERIFIED. -/
def doSnapVerify (s : State) (c : Cmd) : State × Option Reply :=
  match s.job (c.call.par 0 2) with
  | none => refuse s c stStale
  | some j =>
    match (if bitOf (c.call.par 2 1) 0 && !s.drive.present then none
      else s.catEntry j.part (c.call.par 0 2) (c.call.par 4 4) (bitOf (c.call.par 2 1) 0)) with
    | none => refuse s c stNotReady
    | some _ => (s, none)

/-! ### Restores (R388 to R390) -/

/-- The SNAP_VERIFY commands at work for a job answered (R390). -/
def answerVerify (s : State) (jid : Nat) (j : Job) (remote : List (Nat × List Byte)) : State :=
  s.answer (fun c => c.works 0x0403 jid) (fun c =>
    match s.catEntry j.part jid (c.call.par 4 4) (bitOf (c.call.par 2 1) 0) with
    | none => s.reply stNotReady
    | some e =>
      match verifyPlaces s j e remote with
      | none => s.reply stOk
      | some item => { s.reply stDeviceFault with words := [item] })

/-- A restore that fails (R390): its commands are answered with the first failing item, and the job is HALTED. -/
def failRestore (s : State) (jid item : Nat) : State :=
  let r : Reply := { s.reply stDeviceFault with words := [item] }
  ((s.answerJob 0x0402 jid r).answerJob 0x0301 jid r).updJob jid (fun x => { x with
    mode := .halted, restoring := none, ready := true, nextAt := none })

/-- A restore that is verified (R386, R388, R390, R396, R421): the job stands at the capture step, PAUSED, or about to run
for the first time. -/
def endRestore (s : State) (jid : Nat) (e : CatEntry) : State :=
  match s.job jid with
  | none => s
  | some j =>
    let s1 := s.updJob jid (fun x => { x with
      restoring := none, restored := some (e.part, e.job, e.number), ready := true, sealed := false, nanSum := 0, lastUpdate := none,
      givenUp := [], control := [], capAsk := x.capAsk.map (fun a => { a with step := none })
      mode := if x.mode == .running then .running else .paused })
    let s2 := s1.answerJob 0x0402 jid (s1.reply stOk)
    if j.mode = .running then
      if missedStart s2 jid (nextFrame s2.now) then lateStart s2 jid else arm s2 jid (max (nextFrame s2.now) (65536 * j.firstFrame))
    else if j.replay then
      s2.answerJob 0x0301 jid { s2.reply stOk with words := [jid, 0] ++ ((s2.job jid).map (fun x => twoWords x.nextStep)).getD [] }
    else s2

/-- The items of a restore under way written and checked, with the bytes that buddies hold (R388, R389). -/
def runRestore (s : State) (jid : Nat) (remote : List (Nat × List Byte)) : State :=
  match s.job jid with
  | none => s
  | some j =>
    match j.restoring with
    | none => s
    | some (p, k, n, ckpt) =>
      match s.catEntry p k n ckpt with
      | none => failRestore s jid 0
      | some e =>
        match restoreItems s jid j e remote with
        | (some item, s1) => failRestore s1 jid item
        | (none, s1) => endRestore s1 jid e

/-- A job's restore can be written: its tiles are bound, it has a dust sheet to hold them (log 97), or the manifest lists nothing
in scratchpad. -/
def canRestore (s : State) (j : Job) : Bool :=
  j.restoring.isSome && j.mode != .remapping
    && (j.resident || j.dust.isSome || (manItems (s.manifest j)).all (fun m => m.kind != 3))

/-- The ownership entries of a job as its running body homes its buckets, with the quota that it was given (R248, R386). -/
def ownHomes (s : State) (jid : Nat) : State :=
  match s.job jid with
  | none => s
  | some j =>
    match s.jobImage j with
    | none => s
    | some i =>
      let s1 := (List.range 20).foldl (fun (st : State) c => st.updCtl c (fun x => { x with own := SMap.erase x.own jid })) s
      (ownEntries i j.body j.part (Config.carryQuota % 65)).foldl (fun (st : State) e =>
        st.updCtl e.1 (fun x => { x with own := SMap.set x.own jid e.2 })) s1

/-- The work of a re-map (R386): the alternate body takes tiles of the surviving dies, and the snapshot is restored into
it. -/
def remap (s : State) (jid : Nat) (remote : List (Nat × List Byte)) : State :=
  match s.job jid with
  | none => s
  | some j =>
    match s.lostDies.getLast?.bind (remapBody s j) with
    | none => s
    | some b =>
      let s1 := if j.resident then j.binding.foldl (fun (st : State) e => st.scrub e.2) s else s
      let s2 := ownHomes (s1.updJob jid (fun x => { x with resident := false, binding := [], body := b })) jid
      match (s2.job jid).bind (fun x => placeable s2 jid x []) with
      | none => s
      | some bind => runRestore (seat s2 jid bind none) jid remote

/-! ### Snapshots and checkpoints (R377, R379) -/

/-- A capture whose parts are all sealed (R377, R379): its catalogue entry, the reply, the copy to the drive to come. -/
def completeSnapshot (s : State) (jid : Nat) : State :=
  match s.job jid with
  | none => s
  | some j =>
    match j.capture with
    | none => s
    | some c =>
      if (match j.run with | some r => r.capture | none => false) then s
      else
        let s1 := sealSnapshot s jid j c
        let e := entryOf s jid j c
        let copy := (partsOf (s.manifest j)).map (fun p => (p, partCipher s jid j c p))
        -- the catalogue is copied to the drive when one is present
        let s1c : State := { s1 with drive := if s1.drive.present then { s1.drive with catalogue := s1.catalogue } else s1.drive }
        let s2 := s1c.updJob jid (fun x => { x with
          capture := none
          capAsk := (match x.capAsk with | some a => if a.number = c.number then none else some a | none => none)
          copying := if c.checkpoint && s.drive.present then some (e, c.body, copy) else x.copying })
        s2.answerJob 0x0401 jid { s2.reply stOk with words := [c.number, 0] ++ twoWords c.step }

/-- The kind 4 items of a body as a frozen copy (R379). -/
def frozenCopy (s : State) (jid : Nat) (j : Job) (body : Nat) : Frozen :=
  { part := j.part, job := jid, body := body, module := s.moduleNumber,
    items := ((manItems (s.manifest j)).filter (fun m => m.kind == 4)).map (fun m =>
      let bs := itemBytes s j m
      (m.item, sha256 bs, bs)) }

/-- A checkpoint is on the drive (R379): two are kept per job, and the frozen copies of the bodies that they need. -/
def completeCheckpoint (s : State) (jid : Nat) : State :=
  match s.job jid with
  | none => s
  | some j =>
    match j.copying with
    | none => s
    | some (e, body, places) =>
      let own (x : Checkpoint) : Bool := x.part == j.part && x.job == jid && x.module == e.module
      let old := s.drive.checkpoints.filter own
      let new : Checkpoint := { part := j.part, job := jid, number := e.number, step := e.step, body := body, places := places,
                                complete := true, module := e.module }
      let mine := old.drop (old.length - 1) ++ [new]
      let mineToo (f : Frozen) : Bool := f.part == j.part && f.job == jid && f.module == e.module
      let frozen := if s.drive.frozen.any (fun f => mineToo f && f.body == body) then s.drive.frozen
        else s.drive.frozen ++ [frozenCopy s jid { j with body := body } body]
      let drop (x : CatEntry) : Bool := x.checkpoint && !x.shipped && x.part == j.part && x.job == jid && !(old.drop (old.length - 1)).any (fun y => y.number == x.number)
      let cat := s.catalogue.filter (fun x => !drop x) ++ [{ e with checkpoint := true }]
      { s.updJob jid (fun x => { x with copying := none }) with
        catalogue := cat
        drive := { s.drive with
          checkpoints := s.drive.checkpoints.filter (fun x => !own x) ++ mine
          frozen := frozen.filter (fun f => !mineToo f || mine.any (fun x => x.body == f.body))
          catalogue := cat } }

end Sys2Proof.Machine
end

