-- ==== Sys2Proof/Machine/ReqOps.lean ====
section
/-!
DEFINITION. Sys2Proof/Machine/ReqOps.lean: what the request, result, expert and budget commands do (R271 to R273, R281, R283,
R286, R287, R291 to R294, R304, R305, R423 to R425).
-/
namespace Sys2Proof.Machine

/-- A Request Table entry's 32 bytes (R272). -/
def Req.bytes (r : Req) : List Byte :=
  leBytes 32 (packMsb [(64, r.deadline), (32, r.counts), (19, r.length), (19, r.limit), (19, r.remaining), (14, r.head),
    (12, r.tenant), (16, r.version), (8, r.set), (12, r.job), (4, r.part), (3, r.priority), (4, r.state.code),
    (1, b2n r.summaryBit), (1, b2n r.cancelled), (1, b2n r.held), (3, r.countsDie), (24, r.admission)])

/-- A budget counter's 16 bytes (R292). -/
def Budget.bytes (b : Budget) : List Byte :=
  leBytes 16 (packMsb [(48, (BitVec.ofInt 48 b.balance).toNat), (24, b.cap), (24, b.rate), (4, b.part), (1, b2n b.enable),
    (1, b2n b.consent), (26, 0)])

/-- The reply that carries an entry (R419). -/
def entryReply (s : State) (e : Nat) (words : List Nat) : Option Reply := okLong s (fitTo 0 4 words ++ wordsOf (s.req e).bytes)

/-- A request command is not for this job here: a replay job takes none (R396), and only the lead module of a job does (R271). Result
and expert commands ask for the lead module alone. -/
def notServed (s : State) (j : Job) : Bool := j.replay || !s.leads j

/-! ### Requests -/

/-- The version of an expert set that an admission pins (R286). -/
def pinnedVersion (v : Serve) (set : Nat) : Nat :=
  match (v.versions.filter (fun x => x.set == set && x.inPlace && !x.retiring)).getLast? with
  | some x => x.version
  | none => 0

/-- REQ_ADMIT (R271, R273, R294, R305, R423): the lowest free entry and slot are taken (log 123). -/
def doReqAdmit (s : State) (c : Cmd) : State × Option Reply :=
  let b := c.block
  let jid := leAt b 0 2
  match s.job jid with
  | none => refuse s c stStale
  | some j =>
    let tenant := leAt b 2 2
    let bud := s.budget tenant
    let taken := (s.requests.filter (fun e => e.2.state != .free)).map (fun e => e.1)
    let slots := ((s.entries jid).filter (fun e => e.2.state != .free)).map (fun e => e.2.head)
    if notServed s j then refuse s c stDenied
    else if bud.enable = false ∨ bud.part ≠ j.part then refuse s c stDenied
    else
      match (List.range 16384).find? (fun e => !taken.contains e),
          (List.range (s.srv j 0x18 4)).find? (fun x => !slots.contains x) with
      | some e, some slot =>
        let n := leAt b 0x14 4
        let die := leAt b 7 1
        let at_ := 32 * leAt b 0x18 4
        let size := countsBytes (s.vocab j)
        let r : Req := {
          state := .waiting, deadline := leAt b 8 8, counts := leAt b 0x18 4, limit := leAt b 0x10 4, remaining := n, head := slot
          tenant := tenant, version := pinnedVersion (s.serve jid) (leAt b 6 1), set := leAt b 6 1, job := jid, part := j.part
          priority := leAt b 4 1, countsDie := die, admission := s.admissions + 1, converse := bitOf (leAt b 5 1) 0
          tokens := tokensAt b 192 n }
        let s1 := s.plan (nextFrame s.now) (.counts jid die at_ size (slice b 64 128))
        let s2 : State := { s1 with requests := SMap.set s1.requests e r, admissions := s1.admissions + 1 }
        (s2, entryReply s2 e [e, (s.admissions + 1) % 2 ^ 32])
      | _, _ => refuse s c stNoResource

/-- An entry leaves its job's pressure list (R301). -/
def unpress (s : State) (jid e : Nat) : State :=
  s.updServe jid (fun v => { v with pressure := v.pressure.filter (fun x => x != e) })

/-- The park places and the summary place of an entry freed. -/
def freePlaces (s : State) (jid e : Nat) : State :=
  let r := s.req e
  (s.updServe jid (fun v => { v with
    parkUsed := v.parkUsed.filter (fun q => !(r.places.any (fun x => x.2 == q)))
    sumUsed := v.sumUsed.filter (fun q => r.sumPlace != some q) })).updReq e (fun x => { x with places := [], sumPlace := none })

/-- A cancelled entry that will not run again and has nothing under way is FINISHED (R304). -/
def finishEntry (s : State) (jid e : Nat) : State :=
  (freePlaces s jid e).updReq e (fun r => { r with
    state := .finished, released := false, lifeEnd := none, moving := [], doneAt := s.now })

/-- A cancelled request of this state runs to its end (R304). -/
def Req.goesOn (r : Req) : Bool := r.state == .prefill || r.state == .decode || r.state == .unparking

/-- REQ_CANCEL (R304, R418). A request that runs to its end is parked by a shortage or a pressure pause as any other is, and goes on when
it is resumed (log 125). -/
def doReqCancel (s : State) (c : Cmd) : State × Option Reply :=
  let jid := c.call.par 0 2
  let e := c.call.par 4 4
  match s.job jid with
  | none => refuse s c stStale
  | some j =>
    let r := s.req e
    if notServed s j then refuse s c stDenied
    else if r.cancelled = true ∧ r.state ≠ .free then (s, entryReply s e [])
    else
      let s1 := unpress (s.updReq e (fun x => { x with cancelled := true, dropped := x.dropped || !x.goesOn })) jid e
      match r.state with
      | .free | .finished | .expired => refuse s c stStale
      | .prefill | .decode | .unparking => (s1, entryReply s1 e [])
      | .parking => let s2 := if r.moving.isEmpty && !r.summarising then finishEntry s1 jid e else s1; (s2, entryReply s2 e [])
      | .waiting | .parked | .summary => let s2 := if r.summarising then s1 else finishEntry s1 jid e; (s2, entryReply s2 e [])

/-- REQ_PAUSE (R281). -/
def doReqPause (s : State) (c : Cmd) : State × Option Reply :=
  let jid := c.call.par 0 2
  let e := c.call.par 4 4
  match s.job jid with
  | none => refuse s c stStale
  | some j =>
    let r := s.req e
    if notServed s j then refuse s c stDenied
    else
      match r.state with
      | .free | .finished | .expired => refuse s c stStale
      | .prefill | .decode =>
        if r.cancelled then refuse s c stDenied
        else
          let ttl := c.call.par 8 4
          let s1 := enterParking s e (if ttl = 0 then s.srv j 0x34 4 else ttl)
          (s1, entryReply s1 e [])
      | _ => refuse s c stDenied

/-- REQ_RESUME (R282, R283): the reply follows when the planner has taken the entry in. -/
def doReqResume (s : State) (c : Cmd) : State × Option Reply :=
  let f := c.call.fields c.block
  let jid := leAt f 0 2
  let e := leAt f 4 4
  match s.job jid with
  | none => refuse s c stStale
  | some j =>
    let r := s.req e
    if notServed s j then refuse s c stDenied
    else
      match r.state with
      | .expired => ({ s with requests := SMap.erase s.requests e }, some (refusal c.collected stStale))
      | .free | .finished => refuse s c stStale
      | .parked | .summary =>
        let more := if c.call.indirect then tokensAt c.block 32 (leAt c.block 8 4) else []
        let all := r.tokens ++ more
        if r.dropped then refuse s c stDenied
        else
          (unpress (s.updReq e (fun x => { x with
            released := true, tokens := all, first := true
            remaining := if more.isEmpty then x.remaining else x.base + all.length - x.length })) jid e, none)
      | _ => refuse s c stDenied

/-- The REQ_RESUME commands whose entry has left PARKED and SUMMARY are answered (R419). -/
def answerResumes (s : State) : State :=
  s.answer (fun c => c.opcode == 0x0504 && c.started &&
      (let r := s.req (leAt (c.call.fields c.block) 4 4)
       !(r.state == .parked || r.state == .summary)))
    (fun c => (entryReply s (leAt (c.call.fields c.block) 4 4) []).getD (s.reply stOk))

/-! ### Results (R291) -/

/-- A step whose record is not held: not posted yet, or past (R291). A RESULT_RELEASE answered STALE carries no words (R416). -/
def notPosted (s : State) (c : Cmd) (v : Serve) (step : Nat) : State × Option Reply :=
  if (match v.newest with | some n => decide (step ≤ n) | none => false) then
    refuse s c stStale (s.statusWords c.opcode (c.call.par 0 2) stStale)
  else refuse s c stNotReady (newestWords v.newest)

/-- RESULT_READ (R291, R424). -/
def doResultRead (s : State) (c : Cmd) : State × Option Reply :=
  let jid := c.call.par 0 2
  let step := c.call.par 8 8
  match s.job jid with
  | none => refuse s c stStale
  | some j =>
    let v := s.serve jid
    if !s.leads j then refuse s c stDenied
    else
      match v.posted.find? (fun p => p.step == step) with
      | some p => (s, okReply s (twoWords (v.base + p.place * v.placeBytes) ++ [p.bytes]))
      | none => notPosted s c v step

/-- RESULT_RELEASE (R291, R311, R315). -/
def doResultRelease (s : State) (c : Cmd) : State × Option Reply :=
  let jid := c.call.par 0 2
  let step := c.call.par 8 8
  match s.job jid with
  | none => refuse s c stStale
  | some j =>
    let v := s.serve jid
    if !s.leads j then refuse s c stDenied
    else
      match v.posted.find? (fun p => p.step == step) with
      | some p =>
        let s1 := s.updServe jid (fun w => { w with posted := w.posted.filter (fun x => x.step != step),
                                                    usedPlaces := w.usedPlaces.filter (fun q => q != p.place) })
        (s1, okReply s1 [])
      | none => notPosted s c v step

/-! ### Experts (R286, R287) -/

/-- EXPERT_LOAD (R286): free slots are taken; the reply follows when the weights are in place. Versions of a set are numbered one after the
other (log 124). -/
def doExpertLoad (s : State) (c : Cmd) : State × Option Reply :=
  let jid := c.call.par 0 2
  let set := c.call.par 2 1
  match s.job jid with
  | none => refuse s c stStale
  | some j =>
    let v := s.serve jid
    -- the 256 slots are the module's (R22)
    let used := s.jobs.flatMap (fun e => (s.serve e.1).versions.flatMap (fun x => x.slots))
    let free := (List.range 256).filter (fun n => !used.contains n)
    let need := s.srv j 0x64 4
    if !s.leads j then refuse s c stDenied
    else if free.length < need then refuse s c stNoResource
    else
      let n := SMap.getD 0 v.lastVersion set + 1
      (s.updServe jid (fun w => { w with
        lastVersion := SMap.set w.lastVersion set n
        versions := w.versions ++ [{ set := set, version := n, slots := free.take need, weights := 32 * c.call.par 8 8 }] }), none)

/-- The weights of a version copied into its slots on every die (R286): the version is in place from the next tick boundary on. -/
def putExperts (s : State) (jid set version : Nat) : State :=
  match s.job jid with
  | none => s
  | some j =>
    match (s.serve jid).versions.find? (fun x => x.set == set && x.version == version && !x.inPlace && x.copiedAt.isNone) with
    | none => s
    | some x =>
      let n := s.srv j 0x60 4
      let s1 := ((List.range 5).filter s.dieUp).foldl (fun (st : State) die =>
        x.slots.zipIdx.foldl (fun (y : State) k =>
          y.writeWindow j die false (32 * s.srv j 0x58 8 + k.1 * n) (y.readWindow j die true (x.weights + k.2 * n) n)) st) s
      s1.updServe jid (fun v => { v with versions := v.versions.map (fun (y : ExpertVersion) =>
        if y.set = set ∧ y.version = version then { y with copiedAt := some s.now } else y) })

/-- EXPERT_RETIRE (R287). -/
def doExpertRetire (s : State) (c : Cmd) : State × Option Reply :=
  let jid := c.call.par 0 2
  let set := c.call.par 2 1
  let version := c.call.par 4 2
  match s.job jid with
  | none => refuse s c stStale
  | some j =>
    if !s.leads j then refuse s c stDenied
    else if !(s.serve jid).versions.any (fun x => x.set == set && x.version == version) then refuse s c stBadParam
    else
      let s1 := s.updServe jid (fun v => { v with versions := v.versions.map (fun (x : ExpertVersion) =>
        if x.set = set ∧ x.version = version then { x with retiring := true } else x) })
      (s1, okReply s1 [])

/-! ### Budgets (R292, R293) -/

/-- BUDGET_SET (R293, R425). -/
def doBudgetSet (s : State) (c : Cmd) : State × Option Reply :=
  let p := c.call
  let t := p.par 0 2
  let mask := p.par 2 1
  let b := s.budget t
  let on := bitOf (p.par 3 1) 0
  let done (st : State) : State × Option Reply := (st, okLong st ([0, 0, 0, 0] ++ wordsOf (st.budget t).bytes))
  if b.enable = true ∧ b.part ≠ p.pid then refuse s c stDenied
  else if bitOf mask 3 && !on then done { s with budgets := SMap.erase s.budgets t }
  else
    let first := bitOf mask 3 && on && !b.enable
    let k := s.random
    let s1 := if first then k.2 else s
    let b1 : Budget := { b with
      balance := if bitOf mask 0 then sextNat 48 (p.par 8 8) else b.balance
      cap := if bitOf mask 1 then p.par 16 4 else b.cap
      rate := if bitOf mask 2 then p.par 20 4 else b.rate
      enable := b.enable || first
      consent := if bitOf mask 4 then bitOf (p.par 3 1) 1 else b.consent
      part := if first then p.pid else b.part
      salt := if first then k.1 else b.salt }
    done { s1 with budgets := SMap.set s1.budgets t b1 }

end Sys2Proof.Machine
end

