-- ==== Sys2Proof/Machine/HealthOps.lean ====
section
/-!
DEFINITION. Sys2Proof/Machine/HealthOps.lean: what HEALTH_READ returns (R131, R170, R173, R249, R292, R317, R322, R358, R369,
R372, R394, R395, R426 to R428) and RISK_SET_THRESHOLD (R382).
-/
namespace Sys2Proof.Machine

/-! ### Records -/

/-- The repair record of an array (R131): that of a good array where self-test has left none. -/
def repairBytes (s : State) (a : Nat) : List Byte :=
  leBytes 80 (SMap.getD (repairRecord { array := a } 0) s.store.repair a)

/-- The Skim repair record of a tile (R427): that of a good unit where self-test has left none. -/
def skimRepairBytes (s : State) (t : Nat) : List Byte :=
  leBytes 16 (SMap.getD (skimRecord { tile := t } 0) s.store.skim t)

/-- The controller number of a memory error record's index (R426). -/
def ctlOfIndex (i : Nat) : Nat := if i < 20 then i else if i < 40 then i + 12 else i + 24

/-- A memory error record (R170). -/
def Ctl.bytes (c : Ctl) (number : Nat) : List Byte :=
  leBytes 24 (packMsb [(64, c.lastUncorrectable), (32, satNat 32 c.deviceFixes), (32, satNat 32 c.linkFixes),
    (32, satNat 32 c.scrubFixes), (16, satNat 16 c.uncorrectable), (8, number), (8, 0)])

/-- A routing entry (R358). -/
def Route.bytes (r : Route) : List Byte :=
  leBytes 4 (packMsb [(1, b2n r.valid), (1, b2n r.altValid), (8, 0), (4, r.hops), (6, 0), (6, r.primary), (6, r.alternate)])

/-- A partition record (R317). -/
def partRecord (s : State) (pid : Nat) : List Byte :=
  let p := s.part pid
  let mode := if p.state = .free then 0 else if p.pooled then 2 else 1
  leBytes 16 (packMsb [(2, p.state.code), (2, mode), (1, b2n p.privileged), (7, 0), (5, (s.jobsOf pid).length), (16, p.sliceLen),
    (35, 0), (60, p.tiles)])

/-- A grant record (R322). -/
def Part.grantBytes (p : Part) : List Byte :=
  leBytes 32 (packMsb [(64, p.grant1), (64, p.grant2), (64, p.grantDie), (64, p.grantLath)])

/-- A window descriptor (R173). -/
def Part.windowBytes (p : Part) (i : Nat) : List Byte :=
  match SMap.find p.windows i with
  | some w => leBytes 8 (packMsb [(1, 1), (38, 0), (9, w.len), (7, 0), (9, w.base)])
  | none => List.replicate 8 0

/-- A switch record (R428). -/
def Switch.bytes (w : Switch) : List Byte :=
  leBytes 1 w.part ++ leBytes 1 w.outgoing.length ++ leBytes 2 w.incoming ++ leBytes 4 0 ++ leBytes 8 w.decided
    ++ fitTo 0 32 (w.outgoing.flatMap (leBytes 2))
    ++ (List.range 25).flatMap (fun i => leBytes 8 (SMap.getD 0 w.phases (8 * (i / 5) + i % 5)))
    ++ bindingBytes w.binding ++ leBytes 8 0

/-! ### HEALTH_READ (R426) -/

/-- Step records or reports of a job, by step number, from an index on. -/
def recordItems (j : Job) (first : Nat) (f : StepRecord → List Byte) : List (Nat × List Byte) :=
  (sortBy (fun (a b : StepRecord) => decide (a.step ≤ b.step)) (j.records.filter (fun r => decide (first ≤ r.step)))).map
    (fun r => (r.step, f r))

/-- Items of one size by index, from an index on. -/
def itemsOf (n first : Nat) (f : Nat → List Byte) : List (Nat × List Byte) :=
  ((List.range n).filter (fun i => decide (first ≤ i))).map (fun i => (i, f i))

/-- The items that a selector names, from the first index on (R426). From a partition window, those that are not the
partition's own read as zero. -/
def healthItems (s : State) (c : Call) : List (Nat × List Byte) :=
  let op := c.win == 0
  let first := c.par 4 4
  let own (p : Nat) (bs : List Byte) : List Byte := if op || p == c.pid then bs else List.replicate bs.length 0
  match c.par 0 1 with
  | 0 => itemsOf 120 first (repairBytes s)
  | 1 => itemsOf 60 first (skimRepairBytes s)
  | 2 => itemsOf 44 first (fun i => (s.ctl (ctlOfIndex i)).bytes (ctlOfIndex i))
  | 3 => itemsOf 64 first (fun i => (s.link i).bytes)
  | 4 => itemsOf 1024 first (fun i => (SMap.getD ({} : Route) s.routes i).bytes)
  | 5 => itemsOf 12 first (fun i => own i (partRecord s i ++ (s.part i).grantBytes))
  | 6 => itemsOf 10 first (fun i => (s.part (if op then c.par 2 1 else c.pid)).windowBytes i)
  | 7 => itemsOf 4096 first (fun i => own (s.budget i).part (s.budget i).bytes)
  | 8 => match s.job (c.par 2 2) with | some j => recordItems j first (fun r => r.record) | none => []
  | 9 => match s.job (c.par 2 2) with | some j => itemsOf 1 first (fun _ => j.record) | none => []
  | 10 => (s.switchLog.zipIdx.filter (fun e => decide (first ≤ e.2))).map (fun e => (e.2, own e.1.part e.1.bytes))
  | 11 => itemsOf 20 first (fun i => leBytes 4 (satNat 32 (s.ctl i).foreign))
  | _ => match s.job (c.par 2 2) with | some j => recordItems j first (fun r => r.report) | none => []

/-- The items that fit in a number and in a length, in order (R426). -/
def takeFit : Nat → Nat → List (Nat × List Byte) → List (List Byte)
  | 0, _, _ => []
  | _, _, [] => []
  | n + 1, room, (_, bs) :: rest => if bs.length ≤ room then bs :: takeFit n (room - bs.length) rest else []

/-- HEALTH_READ (R426). The selectors of the operator are DENIED to a partition (log 70). -/
def doHealthRead (s : State) (c : Cmd) : State × Option Reply :=
  let sel := c.call.par 0 1
  if c.call.win ≠ 0 ∧ (sel ≤ 4 ∨ sel = 11) then refuse s c stDenied
  else
    let items := healthItems s c.call
    let got := takeFit (c.call.par 8 4) (c.call.par 16 4) items
    let bs := got.flatten
    let next := (items[got.length]?).map (fun e => e.1 % 2 ^ 32)
    (s.output c (c.call.par 12 4) bs,
      some { status := stOk, stamp := nextFrame s.now, more := next.isSome,
             words := [got.length, next.getD (2 ^ 32 - 1), bs.length] })

/-- RISK_SET_THRESHOLD (R382). -/
def doRiskSetThreshold (s : State) (c : Cmd) : State × Option Reply :=
  let s1 : State := { s with health := { s.health with threshold := c.call.par 0 1, holdOff := c.call.par 4 4 } }
  (s1, okReply s1 [])

end Sys2Proof.Machine
end

