-- ==== Sys2Proof/Machine/TrustOps.lean ====
section
/-!
DEFINITION. Sys2Proof/Machine/TrustOps.lean: what the fabric commands (R42, R354, R358, R367, R369), the attestation and key
commands (R448 to R452) and SERVICE_QUIESCE (R453, R454) do.
-/
namespace Sys2Proof.Machine

/-! ### Fabric -/

/-- FABRIC_DISCOVER (R42, R354, R419). -/
def doFabricDiscover (s : State) (c : Cmd) : State × Option Reply :=
  let f := c.call.par 0 1
  let s1 : State := { s with
    number := if bitOf f 0 then some (c.call.par 2 2) else s.number
    store := { s.store with localTime := if bitOf f 1 then bitOf (c.call.par 1 1) 0 else s.store.localTime } }
  let active := ((List.range 64).filter (fun i => (s1.link i).state == .active)).length
  let s2 := s1.output c (c.call.par 8 4) ((List.range 64).flatMap (fun i => (s1.link i).bytes))
  (s2, okReply s2 [active])

/-- ROUTE_INSTALL (R358): every entry applies at one boundary. -/
def doRouteInstall (s : State) (c : Cmd) : State × Option Reply :=
  let b := c.block
  (s.plan (nextFrame s.now) (.routes (leAt b 0 2) ((List.range (leAt b 2 2)).map (fun i => leAt b (32 + 4 * i) 4)) c.id), none)

/-- A link is named in the LATH_SLOTS of a resident context whose job is not PAUSED (R367). -/
def linkInUse (s : State) (link : Nat) : Bool :=
  s.jobs.any (fun e => e.2.resident && e.2.mode != .paused && (lathLinks (s.jobSection e.2 4)).any (fun l => l.1 == link))

/-- LINK_RETRAIN (R367): it takes effect at the frame after collection. -/
def doLinkRetrain (s : State) (c : Cmd) : State × Option Reply :=
  let mask := c.call.par 0 8
  if !bitOf c.call.flags 1 && ((List.range 64).filter (bitOf mask)).any (linkInUse s) then refuse s c stDenied
  else (s.plan (nextFrame s.now) (.links mask (c.call.par 8 1) (c.call.par 9 1) c.id), none)

/-! ### Attestation (R449) -/

/-- The code of a job's state in a quote (R449). -/
def JobMode.code : JobMode → Nat
  | .running => 0 | .paused => 1 | .remapping => 2 | .halted => 3 | .fenced => 1

/-- A quote section (R449). -/
def quoteSection (s : State) (pid : Nat) : List Byte :=
  let p := s.part pid
  let jobs := (s.jobsOf pid).flatMap (fun e =>
    leBytes 2 e.1 ++ leBytes 1 e.2.handle ++ leBytes 1 e.2.mode.code ++ leBytes 1 e.2.body ++ leBytes 3 0)
  let held := (List.range 16).map (fun h => (s.image pid h).isSome)
  partRecord s pid ++ fitTo 0 16 (leBytes 1 pid) ++ p.grantBytes ++ (List.range 10).flatMap p.windowBytes ++ List.replicate 80 0
    ++ sha256 ([0x4D, 0x58, 0x47, 0x4B, 0x45, 0x59, 0x49, 0x44] ++ fitTo 0 64 p.keys)
    ++ (List.range 16).flatMap (fun h => fitTo 0 32 ((s.image pid h).map (fun i => i.digest)).toList.flatten)
    ++ leBytes 2 (bitsToNat held) ++ List.replicate 14 0
    ++ fitTo 0xFF 128 jobs ++ List.replicate 112 0

/-- The quote header (R449). -/
def quoteHeader (s : State) (c : Cmd) (sections : List Byte) : List Byte :=
  leBytes 4 0x4D584751 ++ leBytes 2 1 ++ leBytes 2 (sections.length / 1024) ++ leBytes 8 s.serial ++ slice c.call.params 0 32
    ++ leBytes 8 c.collected ++ leBytes 4 s.firmware ++ leBytes 4 (thermometer s.store.rollback) ++ publicKey Config.identityKey
    ++ publicKey Config.exchangeKey ++ fitTo 0 32 s.firmwareDigest ++ sha256 sections

/-- A random scalar of P-256, and the state that has drawn it (log 9). -/
def State.scalar (s : State) : Nat × State := (1 + Config.random s.draws % (p256N - 1), { s with draws := s.draws + 1 })

/-- Bytes signed by the identity key, and the state that has drawn the signature's nonce. -/
def signBytes (s : State) (bs : List Byte) : List Byte × State :=
  (ecdsaSign Config.identityKey s.scalar.1 (sha256 bs), s.scalar.2)

/-- ATTEST_QUOTE (R449). -/
def doAttestQuote (s : State) (c : Cmd) : State × Option Reply :=
  let sections := (quotedParts s c.call).flatMap (quoteSection s)
  let head := quoteHeader s c sections
  let sig := signBytes s head
  let bs := head ++ sections ++ sig.1
  let s1 := sig.2.output c (c.call.par 32 4) bs
  (s1, okReply s1 [bs.length])

/-! ### KEY_INSTALL (R448, R450 to R452) -/

/-- Where a key index stands in the store: module keys 0 to 7, a partition's own keys beside them (R448). -/
def keySlot (win idx : Nat) : Nat := if win = 0 then idx else 16 * win + idx

/-- Kinds 0 and 1: an image-signing key installed or removed. -/
def doImageKey (s : State) (c : Cmd) : State × Option Reply :=
  let k := keySlot c.call.win (leAt c.block 1 1)
  let s1 : State := { s with store := { s.store with
    keys := if leAt c.block 0 1 = 0 then SMap.set s.store.keys k (slice c.block 0x20 64) else SMap.erase s.store.keys k } }
  (s1, okReply s1 [])

/-- Kind 2: an access entry set, or emptied by a zero mask, for the connections made after the reply, which is posted at the
tick after this one. -/
def doAccessEntry (s : State) (c : Cmd) : State × Option Reply :=
  let s1 := s.plan (s.now + mt) (.access (leAt c.block 1 1) (leAt c.block 4 2) (slice c.block 0x20 64))
  (s1, okReply s1 [])

/-- The signature at an offset of some bytes holds over the digest of what is signed, under a key. -/
def signatureOk (key signed sig : List Byte) : Bool :=
  ecdsaVerify key (sha256 signed) (beNat (slice sig 0 32)) (beNat (slice sig 32 32))

/-- The key that wraps a key pair (R451). -/
def wrapKey (source recipient : Nat) (z : Nat) : List Byte :=
  hkdf32 (leBytes 8 source ++ leBytes 8 recipient) (beBytes 32 z) [0x4D, 0x58, 0x47, 0x20, 0x57, 0x52, 0x41, 0x50]

/-- A wrapped key record (R451), from its ephemeral scalar, its nonce and Z. -/
def wrappedRecord (s : State) (recipient eph : Nat) (nonce : List Byte) (z : Nat) (pair : List Byte) : List Byte × State :=
  let k := wrapKey s.serial recipient z
  let head := leBytes 4 0x4D58474B ++ leBytes 4 0 ++ leBytes 8 s.serial ++ leBytes 8 recipient ++ leBytes 8 0 ++ publicKey eph
    ++ nonce ++ leBytes 4 0
  let ct := gcmCtr k nonce (fitTo 0 64 pair)
  let body := head ++ ct ++ gcmTag k nonce head ct ++ publicKey Config.identityKey
  let sig := signBytes s body
  (body ++ sig.1, sig.2)

/-- Kind 3: the partition's key pair wrapped for the module whose quote header is given (R451). A recipient whose exchange
key is no point of P-256 is DENIED (log 71). -/
def doKeyExport (s : State) (c : Cmd) : State × Option Reply :=
  let head := slice c.block 0x20 256
  let sig := slice c.block 0x120 64
  let peer := keyPoint (slice head 0x80 64)
  let e := s.scalar
  if !signatureOk (slice head 0x40 64) head sig || !onCurve peer then refuse s c stDenied
  else
    match pointMul e.1 peer with
    | none => refuse s c stDenied
    | some q =>
      let n := e.2.random
      let r := wrappedRecord n.2 (leAt head 8 8) e.1 (n.1.take 12) q.1 (s.part c.call.pid).keys
      let s1 := r.2.output c (leAt c.block 8 4) r.1
      (s1, okReply s1 [320])

/-- The key pair in a wrapped key record for this module, if its signature and its tag hold (R452). -/
def unwrapKeys (s : State) (rec_ : List Byte) : Option (List Byte) :=
  if leAt rec_ 0x10 8 ≠ s.serial ∨ signatureOk (slice rec_ 0xC0 64) (rec_.take 256) (slice rec_ 256 64) = false
      ∨ onCurve (keyPoint (slice rec_ 0x20 64)) = false then none
  else
    match pointMul Config.exchangeKey (keyPoint (slice rec_ 0x20 64)) with
    | none => none
    | some q =>
      let k := wrapKey (leAt rec_ 8 8) s.serial q.1
      let nonce := slice rec_ 0x60 12
      let ct := slice rec_ 0x70 64
      if gcmTag k nonce (rec_.take 0x70) ct = slice rec_ 0xB0 16 then some (gcmCtr k nonce ct) else none

/-- Kind 4: a key pair imported into a partition that holds no job (R452). -/
def doKeyImport (s : State) (c : Cmd) : State × Option Reply :=
  if !(s.jobsOf c.call.pid).isEmpty then refuse s c stDenied
  else
    match unwrapKeys s (slice c.block 0x20 320) with
    | none => refuse s c stDenied
    | some pair =>
      let s1 := s.updPart c.call.pid (fun p => { p with keys := pair })
      (s1, okReply s1 [])

/-- KEY_INSTALL, by its kind (R450). -/
def doKeyInstall (s : State) (c : Cmd) : State × Option Reply :=
  match leAt c.block 0 1 with
  | 0 | 1 => doImageKey s c
  | 2 => doAccessEntry s c
  | 3 => doKeyExport s c
  | _ => doKeyImport s c

/-! ### SERVICE_QUIESCE (R453, R454) -/

/-- SERVICE_QUIESCE: answered when the module is quiesced. -/
def doServiceQuiesce (s : State) (c : Cmd) : State × Option Reply :=
  if s.quiesce = .done then (s, okReply s [])
  else if c.call.par 0 1 = 0 then (requestOrderly s, none)
  else (requestEmergency s, none)

end Sys2Proof.Machine
end

