-- ==== Sys2Proof/Machine/CommandRows.lean ====
section
/-!
DEFINITION. Sys2Proof/Machine/CommandRows.lean: a collected packet takes effect (R413, R415, R417), windows are collected (R412),
and the meanings of the host commands. A command row is a packet that software has written into its window's slot
before the tick boundary at which it is collected.
-/
namespace Sys2Proof.Machine

/-! ### Effects (R413, R415) -/

/-- Check 6 of R415 and the effect of a command: its state, and its reply where it has completed. -/
def handle (s : State) (c : Cmd) : State × Option Reply :=
  match c.opcode with
  | 0x0101 => doPartCreate s c
  | 0x0102 => doPartDestroy s c
  | 0x0103 => doPartSeal s c
  | 0x0104 => doPartSetSlice s c
  | 0x0201 => doImageLoad s c
  | 0x0202 => doImageUnload s c
  | 0x0301 => doJobStart s c
  | 0x0302 => doJobPause s c
  | 0x0303 => doJobResume s c
  | 0x0304 => doJobStop s c
  | 0x0305 => doStepReplay s c
  | 0x0401 => doSnapTake s c
  | 0x0402 => doSnapRestore s c
  | 0x0403 => doSnapVerify s c
  | 0x0501 => doReqAdmit s c
  | 0x0502 => doReqCancel s c
  | 0x0503 => doReqPause s c
  | 0x0504 => doReqResume s c
  | 0x0505 => doResultRead s c
  | 0x0506 => doResultRelease s c
  | 0x0601 => doExpertLoad s c
  | 0x0602 => doExpertRetire s c
  | 0x0701 => doBudgetSet s c
  | 0x0801 => doFabricDiscover s c
  | 0x0802 => doRouteInstall s c
  | 0x0901 => doHealthRead s c
  | 0x0902 => doRiskSetThreshold s c
  | 0x0A01 => doAttestQuote s c
  | 0x0803 => doLinkRetrain s c
  | 0x0A02 => doKeyInstall s c
  | _ => doServiceQuiesce s c

/-- A command served, with the memory errors that firmware meets in serving it: an uncorrectable one answers it with DEVICE_FAULT
(R169, log 88). -/
def served (s : State) (c : Cmd) : State × Option Reply :=
  if anyLost c.call.mem then refuse (countAll s c.call.mem) c stDeviceFault else handle (countAll s c.call.mem) c

/-- A command takes effect (R413). -/
def perform (s : State) (id : Nat) : State :=
  match s.cmds.find? (fun c => c.id == id) with
  | none => s
  | some found =>
    let c : Cmd := { found with started := true }
    let s1 : State := { s with cmds := s.cmds.map (fun (x : Cmd) => if x.id = id then { x with started := true } else x) }
    let r := match gate s1 c with
      | some st => refuse s1 c st (s1.statusWords c.opcode (c.call.par 0 2) st)
      | none => served s1 c
    match r.2 with
    | some rep => r.1.answer (fun x => x.id == id) (fun _ => rep)
    | none => r.1

/-- Every command that can take effect does, in collection order, at most `fuel` of them (R417). -/
def performAll : Nat → State → State
  | 0, s => s
  | fuel + 1, s =>
    match s.due.head? with
    | some c => performAll fuel (perform s c.id)
    | none => s

/-- A reply of OK that completes at the clock's tick boundary is stamped with the frame that follows (R49). -/
def Cmd.settled (now : Nat) (c : Cmd) : Cmd :=
  { c with reply := c.reply.map (fun r => if r.status = stOk ∧ r.stamp = now then { r with stamp := nextFrame now } else r) }

/-- What can take effect at the clock's tick boundary does. -/
def work (s : State) : State :=
  let s1 := performAll s.cmds.length s
  { s1 with cmds := s1.cmds.map (Cmd.settled s1.now) }

/-! ### Collection (R412) -/

/-- The packets of one window collected, each with its effect, at most `fuel` of them: it stops at the first slot that does
not hold Expected, or where the reservation allows no more. `errors` are those that firmware meets in serving them. -/
def collectWindow (errors : List PacketErrors) (w : Nat) : Nat → State → State
  | 0, s => s
  | fuel + 1, s =>
    let x := s.win w
    let p := commandPacket w (Mem.read x.area (slotAt x.expected) 64)
    let met := (errors.filter (fun e => e.win == w && e.seq == x.expected)).flatMap (fun e => e.errors)
    if s.mayCollect w && s.collectable w then collectWindow errors w fuel (work (collect s p.1 { p.2.2 with mem := met })) else s

/-- The windows up to one collected, the operator's first (R412). -/
def collectTo (errors : List PacketErrors) (w : Nat) (s : State) : State :=
  if s.gonePast w then s
  else { (List.range (w + 1)).foldl (fun (st : State) x => collectWindow errors x 64 st) s with passed := some (s.now, w) }

/-- The boundary at which a host command's packet is collected, with whatever the windows before its own, and its own, hold collected
(R412). -/
def boundaryFor (s : State) (dt : Nat) (c : Call) : State := collectTo [] c.win (work (s.after dt).toTick)

/-- A packet put in its slot (R411), where the window is open: with the first sequence number that is free, written before the boundary,
or, where collection there has gone past the window, at it (log 134). -/
def writePacket (s : State) (opcode : Nat) (c : Call) : State :=
  s.updWin c.win (fun w =>
    match w.free with
    | some n =>
      if w.isOpen then
        { w with area := Mem.write w.area (slotAt n) (packetBytes opcode n c),
                 written := if s.gonePast c.win then SMap.set w.written (n % 64) s.now else SMap.erase w.written (n % 64) }
      else w
    | none => w)

/-- A host command: the packet is in its slot at the next tick boundary, where it is collected in its turn and takes effect. The
packet's bytes say what it asks: of the rows that share an opcode, each carries out what its packet names (log 66). -/
def hostCommand (s : State) (dt opcode : Nat) (c : Call) : State :=
  let s1 := boundaryFor s dt c
  let p := commandPacket c.win (packetBytes opcode (s1.win c.win).expected c)
  let s2 := writePacket s1 opcode c
  if s1.takesNext c.win && s2.mayCollect c.win then work (collect s2 p.1 { p.2.2 with mem := c.mem }) else s2

/-! ### The commands (R419) -/

/-- PART_CREATE (R318). -/
def execPartCreate (dt : Nat) (c : Call) (s : State) : Host.Outcome State Fault Refusal :=
  .next (hostCommand s dt 0x0101 c)

/-- PART_DESTROY (R335). -/
def execPartDestroy (dt : Nat) (c : Call) (s : State) : Host.Outcome State Fault Refusal :=
  .next (hostCommand s dt 0x0102 c)

/-- PART_SEAL (R318). -/
def execPartSeal (dt : Nat) (c : Call) (s : State) : Host.Outcome State Fault Refusal :=
  .next (hostCommand s dt 0x0103 c)

/-- PART_SET_SLICE (R318, R335). -/
def execPartSetSlice (dt : Nat) (c : Call) (s : State) : Host.Outcome State Fault Refusal :=
  .next (hostCommand s dt 0x0104 c)

/-- IMAGE_LOAD (R61). -/
def execImageLoad (dt : Nat) (c : Call) (s : State) : Host.Outcome State Fault Refusal :=
  .next (hostCommand s dt 0x0201 c)

/-- IMAGE_UNLOAD (R419). -/
def execImageUnload (dt : Nat) (c : Call) (s : State) : Host.Outcome State Fault Refusal :=
  .next (hostCommand s dt 0x0202 c)

/-- JOB_START (R421). -/
def execJobStart (dt : Nat) (c : Call) (s : State) : Host.Outcome State Fault Refusal :=
  .next (hostCommand s dt 0x0301 c)

/-- JOB_PAUSE (R419). -/
def execJobPause (dt : Nat) (c : Call) (s : State) : Host.Outcome State Fault Refusal :=
  .next (hostCommand s dt 0x0302 c)

/-- JOB_RESUME (R392, R419). -/
def execJobResume (dt : Nat) (c : Call) (s : State) : Host.Outcome State Fault Refusal :=
  .next (hostCommand s dt 0x0303 c)

/-- JOB_STOP (R334). -/
def execJobStop (dt : Nat) (c : Call) (s : State) : Host.Outcome State Fault Refusal :=
  .next (hostCommand s dt 0x0304 c)

/-- STEP_REPLAY (R397). -/
def execStepReplay (dt : Nat) (c : Call) (s : State) : Host.Outcome State Fault Refusal :=
  .next (hostCommand s dt 0x0305 c)

/-- SNAP_TAKE (R373). -/
def execSnapTake (dt : Nat) (c : Call) (s : State) : Host.Outcome State Fault Refusal :=
  .next (hostCommand s dt 0x0401 c)

/-- SNAP_RESTORE (R388). -/
def execSnapRestore (dt : Nat) (c : Call) (s : State) : Host.Outcome State Fault Refusal :=
  .next (hostCommand s dt 0x0402 c)

/-- SNAP_VERIFY (R390). -/
def execSnapVerify (dt : Nat) (c : Call) (s : State) : Host.Outcome State Fault Refusal :=
  .next (hostCommand s dt 0x0403 c)

/-- REQ_ADMIT (R273). -/
def execReqAdmit (dt : Nat) (c : Call) (s : State) : Host.Outcome State Fault Refusal :=
  .next (hostCommand s dt 0x0501 c)

/-- REQ_CANCEL (R304). -/
def execReqCancel (dt : Nat) (c : Call) (s : State) : Host.Outcome State Fault Refusal :=
  .next (hostCommand s dt 0x0502 c)

/-- REQ_PAUSE (R281). -/
def execReqPause (dt : Nat) (c : Call) (s : State) : Host.Outcome State Fault Refusal :=
  .next (hostCommand s dt 0x0503 c)

/-- REQ_RESUME (R283). -/
def execReqResume (dt : Nat) (c : Call) (s : State) : Host.Outcome State Fault Refusal :=
  .next (hostCommand s dt 0x0504 c)

/-- RESULT_READ (R291). -/
def execResultRead (dt : Nat) (c : Call) (s : State) : Host.Outcome State Fault Refusal :=
  .next (hostCommand s dt 0x0505 c)

/-- RESULT_RELEASE (R291). -/
def execResultRelease (dt : Nat) (c : Call) (s : State) : Host.Outcome State Fault Refusal :=
  .next (hostCommand s dt 0x0506 c)

/-- EXPERT_LOAD (R286). -/
def execExpertLoad (dt : Nat) (c : Call) (s : State) : Host.Outcome State Fault Refusal :=
  .next (hostCommand s dt 0x0601 c)

/-- EXPERT_RETIRE (R287). -/
def execExpertRetire (dt : Nat) (c : Call) (s : State) : Host.Outcome State Fault Refusal :=
  .next (hostCommand s dt 0x0602 c)

/-- BUDGET_SET (R293). -/
def execBudgetSet (dt : Nat) (c : Call) (s : State) : Host.Outcome State Fault Refusal :=
  .next (hostCommand s dt 0x0701 c)

/-- FABRIC_DISCOVER (R354). -/
def execFabricDiscover (dt : Nat) (c : Call) (s : State) : Host.Outcome State Fault Refusal :=
  .next (hostCommand s dt 0x0801 c)

/-- ROUTE_INSTALL (R358). -/
def execRouteInstall (dt : Nat) (c : Call) (s : State) : Host.Outcome State Fault Refusal :=
  .next (hostCommand s dt 0x0802 c)

/-- HEALTH_READ (R426). -/
def execHealthRead (dt : Nat) (c : Call) (s : State) : Host.Outcome State Fault Refusal :=
  .next (hostCommand s dt 0x0901 c)

/-- RISK_SET_THRESHOLD (R382). -/
def execRiskSetThreshold (dt : Nat) (c : Call) (s : State) : Host.Outcome State Fault Refusal :=
  .next (hostCommand s dt 0x0902 c)

/-- ATTEST_QUOTE (R449). -/
def execAttestQuote (dt : Nat) (c : Call) (s : State) : Host.Outcome State Fault Refusal :=
  .next (hostCommand s dt 0x0A01 c)

/-- LINK_RETRAIN, action 0: retrain (R367). -/
def execLinkRetrain (dt : Nat) (c : Call) (s : State) : Host.Outcome State Fault Refusal :=
  .next (hostCommand s dt 0x0803 c)

/-- LINK_RETRAIN, action 1: disable (R367). -/
def execLinkRetrainDisable (dt : Nat) (c : Call) (s : State) : Host.Outcome State Fault Refusal :=
  .next (hostCommand s dt 0x0803 c)

/-- LINK_RETRAIN, action 2: enable (R367). -/
def execLinkRetrainEnable (dt : Nat) (c : Call) (s : State) : Host.Outcome State Fault Refusal :=
  .next (hostCommand s dt 0x0803 c)

/-- LINK_RETRAIN, action 3: limit and retrain (R367). -/
def execLinkRetrainLimit (dt : Nat) (c : Call) (s : State) : Host.Outcome State Fault Refusal :=
  .next (hostCommand s dt 0x0803 c)

/-- KEY_INSTALL, kind 0 (R450). -/
def execInstallImageKey (dt : Nat) (c : Call) (s : State) : Host.Outcome State Fault Refusal :=
  .next (hostCommand s dt 0x0A02 c)

/-- KEY_INSTALL, kind 1 (R450). -/
def execRemoveImageKey (dt : Nat) (c : Call) (s : State) : Host.Outcome State Fault Refusal :=
  .next (hostCommand s dt 0x0A02 c)

/-- KEY_INSTALL, kind 2 (R450). -/
def execSetAccessEntry (dt : Nat) (c : Call) (s : State) : Host.Outcome State Fault Refusal :=
  .next (hostCommand s dt 0x0A02 c)

/-- KEY_INSTALL, kind 3 (R451). -/
def execExportKeyPair (dt : Nat) (c : Call) (s : State) : Host.Outcome State Fault Refusal :=
  .next (hostCommand s dt 0x0A02 c)

/-- KEY_INSTALL, kind 4 (R452). -/
def execImportKeyPair (dt : Nat) (c : Call) (s : State) : Host.Outcome State Fault Refusal :=
  .next (hostCommand s dt 0x0A02 c)

/-- SERVICE_QUIESCE, mode 0 (R453). -/
def execOrderlyQuiesce (dt : Nat) (c : Call) (s : State) : Host.Outcome State Fault Refusal :=
  .next (hostCommand s dt 0x0B01 c)

/-- SERVICE_QUIESCE, mode 1 (R454). -/
def execEmergencyQuiesce (dt : Nat) (c : Call) (s : State) : Host.Outcome State Fault Refusal :=
  .next (hostCommand s dt 0x0B01 c)

end Sys2Proof.Machine
end

