-- ==== Sys2Proof/Machine/ManagementRows.lean ====
section
/-!
DEFINITION. Sys2Proof/Machine/ManagementRows.lean: the register region (R402, R403, R408) and the commands of the management
ports that reach it (R443 to R446).
-/
namespace Sys2Proof.Machine

/-! ### The register region (R402) -/

/-- What a 4 KiB page of the region belongs to: the global registers, a window block and the page in it, a partition's
staging or result aperture and the page in it, or nothing. -/
inductive RegionPage where
  | global
  | window (w page : Nat)
  | staging (p page : Nat)
  | result (p page : Nat)
  | unassigned
  deriving DecidableEq, Repr

/-- The page at a page number of the region. -/
def regionPage (n : Nat) : RegionPage :=
  if n = 0 then .global
  else if n < 0x1000 then .unassigned
  else if n < 0x1000 + 13 * 0x400 then .window ((n - 0x1000) / 0x400) ((n - 0x1000) % 0x400)
  else if n < 0x1000000 then .unassigned
  else if n < 0x1000000 + 12 * 0x100000 then .staging ((n - 0x1000000) / 0x100000) ((n - 0x1000000) % 0x100000)
  else if n < 0x2000000 then .unassigned
  else if n < 0x2000000 + 12 * 0x100000 then .result ((n - 0x2000000) / 0x100000) ((n - 0x2000000) % 0x100000)
  else .unassigned

/-- A connection of a window mask reaches a page (R446). -/
def RegionPage.reached (mask : Nat) : RegionPage → Bool
  | .global => true
  | .window w _ => bitOf mask w
  | .staging p _ | .result p _ => bitOf mask (p + 1)
  | .unassigned => false

/-- The three registers of a window block as they show (R408). One that has never opened shows its partition alone
(log 72). -/
def windowRegs (s : State) (w : Nat) : List Byte :=
  match SMap.find s.wins w with
  | some x => leBytes 8 x.shownStatus ++ leBytes 8 x.shownHead ++ leBytes 8 x.ack
  | none => leBytes 8 ((if w = 0 then 15 else w - 1) * 2 ^ 27) ++ leBytes 16 0

/-- The global registers as bytes (R404). -/
def globalBytes (s : State) : List Byte := fitTo 0 0x1000 ((List.range 7).flatMap (fun i => leBytes 8 (SMap.getD 0 s.regs (8 * i))))

/-- A page of the region as it reads (R402): what is not backed or not assigned reads as zero. -/
def readPage (s : State) (n : Nat) : List Byte :=
  let none_ : List Byte := List.replicate 0x1000 0
  match regionPage n with
  | .global => globalBytes s
  | .window w k =>
    if k = 2 then fitTo 0 0x1000 (windowRegs s w)
    else if k = 1 ∨ (s.win w).isOpen = true then Mem.read (s.win w).area (0x1000 * k) 0x1000
    else none_
  | .staging p k => if (s.part p).state = .free then none_ else Mem.read s.hub (stagingAt p + 0x1000 * k) 0x1000
  | .result p k => if (s.part p).state = .free then none_ else Mem.read s.hub (resultAt p + 0x1000 * k) 0x1000
  | .unassigned => none_

/-- Bytes written to an area of a page that software may write (R402, R408): a command slot, the parameter and output areas,
REPLY_ACK, a staging aperture. Anything else is ignored. -/
def writePage (s : State) (n off : Nat) (bs : List Byte) : State :=
  match regionPage n with
  | .window w k =>
    if k = 2 then
      if off ≤ 0x10 ∧ 0x14 ≤ off + bs.length then s.updWin w (fun x => { x with ack := leAt bs (0x10 - off) 4 }) else s
    else if (k = 0 ∨ 0x100 ≤ k) ∧ k < 0x300 ∧ (s.win w).isOpen = true then
      let words := if k = 0 then (List.range 64).filter (fun i => decide (off ≤ 64 * i + 8) && decide (64 * i + 12 ≤ off + bs.length)) else []
      s.updWin w (fun x => { x with area := Mem.write x.area (0x1000 * k + off) bs,
                                    written := words.foldl (fun (m : SMap Nat) i => SMap.set m i s.now) x.written })
    else s
  | .staging p k =>
    if (s.part p).state = .free then s else { s with hub := Mem.write s.hub (stagingAt p + 0x1000 * k + off) bs }
  | _ => s

/-- The pages that a request of some bytes at a region offset touches. -/
def pagesOf (off n : Nat) : List Nat := (List.range ((off + n - 1) / 0x1000 - off / 0x1000 + 1)).map (fun i => off / 0x1000 + i)

/-- Bytes read from the region. -/
def readRegion (s : State) (off n : Nat) : List Byte := slice ((pagesOf off n).flatMap (readPage s)) (off % 0x1000) n

/-- Bytes written to the region, page by page. -/
def writeRegion (s : State) (off : Nat) (bs : List Byte) : State :=
  (pagesOf off bs.length).foldl (fun (st : State) n =>
    let lo := max off (0x1000 * n)
    let hi := min (off + bs.length) (0x1000 * n + 0x1000)
    writePage st n (lo - 0x1000 * n) (slice bs (lo - off) (hi - lo))) s

/-! ### Requests (R445, R446) -/

/-- The base of region 0x1 (R171). -/
def regionBase : Nat := 2 ^ 40

/-- A request is well formed (R445, R446): its operation, its length, its alignment, all of it in region 0x1. -/
def requestOk (head : List Byte) (op : Nat) : Bool :=
  let n := leAt head 4 4
  let a := leAt head 8 8
  leAt head 0 1 == op && n % 4 == 0 && within 4 1048576 n && a % 4 == 0 && decide (regionBase ≤ a) && decide (a + n ≤ 2 * regionBase)

/-- Every byte of a request is one that its connection reaches (R446). -/
def requestReaches (mask off n : Nat) : Bool := (pagesOf off n).all (fun p => (regionPage p).reached mask)

/-- A reply sent on a connection (R445). -/
def answerConn (s : State) (conn status addr : Nat) (data : List Byte) : State :=
  { s with conns := match SMap.find s.conns conn with
      | some c => SMap.set s.conns conn { c with
          out := leBytes 1 status ++ leBytes 3 0 ++ leBytes 4 data.length ++ leBytes 8 addr ++ data }
      | none => s.conns }

/-- The management ports are up: from P2 on, and in the service state (R443). -/
def portsUp (s : State) : Bool :=
  match s.start.stage with
  | .phase n => decide (2 ≤ n)
  | .running | .service => true
  | _ => false

/-- TLS_HANDSHAKE (R443, R444): a client presents a P-256 key on a port. -/
def execTlsHandshake (dt port : Nat) (key : List Byte) (s : State) : Host.Outcome State Fault Refusal :=
  let s1 := s.after dt
  let valid := portsUp s1 && decide (port < 2) && key.length == 64 && onCurve (keyPoint key)
    && decide ((s1.conns.filter (fun e => e.2.port == port)).length < 16)
  let s2 : State := if s1.store.access.isEmpty then
      { s1 with store := { s1.store with access := SMap.set [] 0 { mask := 1, key := key } } } else s1
  match s2.store.access.find? (fun e => e.2.key == key) with
  | some e =>
    if valid then
      .next { s2 with connSeq := s2.connSeq + 1, conns := SMap.set s2.conns (s2.connSeq + 1) { port := port, mask := e.2.mask } }
    else .next s1
  | none => .next s1

/-- MANAGEMENT_READ (R445, R446). -/
def execManagementRead (dt conn : Nat) (head : List Byte) (s : State) : Host.Outcome State Fault Refusal :=
  let s1 := s.after dt
  let n := leAt head 4 4
  let a := leAt head 8 8
  match SMap.find s1.conns conn with
  | none => .next s1
  | some c =>
    if !requestOk head 1 then .next (answerConn s1 conn 2 a [])
    else if !requestReaches c.mask (a - regionBase) n then .next (answerConn s1 conn 1 a [])
    else .next (answerConn s1 conn 0 a (readRegion s1 (a - regionBase) n))

/-- MANAGEMENT_WRITE (R445, R446): denied whole, or every byte applied before the reply. -/
def execManagementWrite (dt conn : Nat) (head data : List Byte) (s : State) : Host.Outcome State Fault Refusal :=
  let s1 := s.after dt
  let n := leAt head 4 4
  let a := leAt head 8 8
  match SMap.find s1.conns conn with
  | none => .next s1
  | some c =>
    if !requestOk head 2 || data.length != n then .next (answerConn s1 conn 2 a [])
    else if !requestReaches c.mask (a - regionBase) n then .next (answerConn s1 conn 1 a [])
    else .next (answerConn (writeRegion s1 (a - regionBase) data) conn 0 a [])

end Sys2Proof.Machine
end

