-- ==== Sys2Proof/Machine/MemoryRows.lean ====
section
/-!
DEFINITION. Sys2Proof/Machine/MemoryRows.lean: the commands of units 4 and 5 (R154 to R165, R217 to R224).
-/
namespace Sys2Proof.Machine

/-- VECTOR_REGISTER_LOAD (R156): Class 0x30 loads scratchpad units into a vector register. -/
def execVectorRegisterLoad (dt tile : Nat) (r : IssueRec) (s : State) : Host.Outcome State Fault Refusal :=
  issue s dt tile .hawk 0x30 r

/-- VECTOR_REGISTER_STORE (R156): Class 0x30 stores a vector register to scratchpad. -/
def execVectorRegisterStore (dt tile : Nat) (r : IssueRec) (s : State) : Host.Outcome State Fault Refusal :=
  issue s dt tile .hawk 0x30 r

/-- PREDICATE_LOAD (R156): Class 0x30 loads a predicate register from scratchpad. -/
def execPredicateLoad (dt tile : Nat) (r : IssueRec) (s : State) : Host.Outcome State Fault Refusal :=
  issue s dt tile .hawk 0x30 r

/-- PREDICATE_STORE (R156): Class 0x30 stores a predicate register to scratchpad. -/
def execPredicateStore (dt tile : Nat) (r : IssueRec) (s : State) : Host.Outcome State Fault Refusal :=
  issue s dt tile .hawk 0x30 r

/-- COLUMN_MASK_LOAD (R137): Class 0x30 loads the Hawk or Float column mask. -/
def execColumnMaskLoad (dt tile : Nat) (r : IssueRec) (s : State) : Host.Outcome State Fault Refusal :=
  issue s dt tile .hawk 0x30 r

/-- SKIM_ACTIVATION_ENTRY_LOAD (R140): Class 0x30 fills a Skim activation entry from a segment. -/
def execSkimActivationEntryLoad (dt tile : Nat) (r : IssueRec) (s : State) : Host.Outcome State Fault Refusal :=
  issue s dt tile .hawk 0x30 r

/-- SKIM_CONTROL_WORD_LOAD (R141): Class 0x30 loads the Skim control word. -/
def execSkimControlWordLoad (dt tile : Nat) (r : IssueRec) (s : State) : Host.Outcome State Fault Refusal :=
  issue s dt tile .hawk 0x30 r

/-- MEMORY_BASE_LOAD (R159): Class 0x30 loads a memory base register. -/
def execMemoryBaseLoad (dt tile : Nat) (r : IssueRec) (s : State) : Host.Outcome State Fault Refusal :=
  issue s dt tile .hawk 0x30 r

/-- ZERO_FILL (R156): Class 0x30 writes zero to scratchpad units. -/
def execZeroFill (dt tile : Nat) (r : IssueRec) (s : State) : Host.Outcome State Fault Refusal :=
  issue s dt tile .hawk 0x30 r

/-- TURN_READ (R157): Class 0x31 writes the transpose of a square segment. -/
def execTurnRead (dt tile : Nat) (r : IssueRec) (s : State) : Host.Outcome State Fault Refusal :=
  issue s dt tile .hawk 0x31 r

/-- HBM_READ_BESIDE (R160): Class 0x40 reads tier 1 from the controller beside the tile, converting if asked. -/
def execHbmReadBeside (dt tile : Nat) (r : IssueRec) (s : State) : Host.Outcome State Fault Refusal :=
  issue s dt tile .hawk 0x40 r

/-- HBM_READ_OTHER (R160): Class 0x41 reads tier 1 from another controller of the die. -/
def execHbmReadOther (dt tile : Nat) (r : IssueRec) (s : State) : Host.Outcome State Fault Refusal :=
  issue s dt tile .hawk 0x41 r

/-- HBM_WRITE (R160): Class 0x42 writes tier 1, converting if asked. -/
def execHbmWrite (dt tile : Nat) (r : IssueRec) (s : State) : Host.Outcome State Fault Refusal :=
  issue s dt tile .hawk 0x42 r

/-- LPDDR_ACCESS_BESIDE (R164): Class 0x43 reads or writes tier 2 on the controller beside the tile. -/
def execLpddrAccessBeside (dt tile : Nat) (r : IssueRec) (s : State) : Host.Outcome State Fault Refusal :=
  issue s dt tile .hawk 0x43 r

/-- LPDDR_ACCESS_OTHER (R164): Class 0x44 reads or writes tier 2 on another controller of the die. -/
def execLpddrAccessOther (dt tile : Nat) (r : IssueRec) (s : State) : Host.Outcome State Fault Refusal :=
  issue s dt tile .hawk 0x44 r

/-- PUT (R219): Class 0x45 write converts a segment to a stash form and keeps it in the stash or writes it to its
place. -/
def execPut (dt tile : Nat) (r : IssueRec) (s : State) : Host.Outcome State Fault Refusal :=
  issue s dt tile .hawk 0x45 r

/-- TAKE (R221): Class 0x45 read takes a kept put from the stash or reads its place. -/
def execTake (dt tile : Nat) (r : IssueRec) (s : State) : Host.Outcome State Fault Refusal :=
  issue s dt tile .hawk 0x45 r

end Sys2Proof.Machine
end

