-- ==== Sys2Proof/Machine/StepRows.lean ====
section
/-!
DEFINITION. Sys2Proof/Machine/StepRows.lean: the meanings of the commands of a step's life: its start and end, its beats,
its faults and its abandonment, and the exact gradient reduction at the homes. A command whose event cannot
arise in the state changes only the clock (log 5).
-/
namespace Sys2Proof.Machine

/-- STEP_START (R63): at the job's due stamp. `words` are the landings of what the step is told. -/
def execStepStart (dt job : Nat) (words : List StepWords) (s : State) : Host.Outcome State Fault Refusal :=
  let s1 := s.after dt
  .next (startStep (s1.settleBy ((s1.job job).bind (fun j => j.nextAt))) job words)

/-- STEP_END (R63): at the step's last cycle. `outs` is what the image made of each batch row. -/
def execStepEnd (dt job : Nat) (outs : List RowOut) (s : State) : Host.Outcome State Fault Refusal :=
  let s1 := s.after dt
  .next (endStep (s1.settleBy (((s1.job job).bind (fun j => j.live)).map (fun r => r.stop - 1))) job outs)

/-- A beat of one object, commit object or not, at its stamp; `k` acts on the job if the beat fires. -/
def beatOf (s : State) (job obj : Nat) (k : Job → StepRun → Job) : State :=
  match (s.job job).bind (fun j => beatAt s j obj) with
  | none => s
  | some t =>
    let x := takeBeat ((s.settle t).advance t) job obj
    if x.2 then x.1.updJob job (fun j => match j.live with | some r => k j r | none => j) else x.1

/-- SYNC_BEAT (R74): the beat of an object other than the training map's commit object. -/
def execSyncBeat (dt job object : Nat) (s : State) : Host.Outcome State Fault Refusal :=
  let s1 := s.after dt
  match (s1.job job).bind s1.commitObject with
  | some c => .next (if c = object then s1 else beatOf s1 job object (fun j _ => j))
  | none => .next (beatOf s1 job object (fun j _ => j))

/-- COMMIT_BEAT (R236): the beat of the training map's commit object. -/
def execCommitBeat (dt job : Nat) (s : State) : Host.Outcome State Fault Refusal :=
  let s1 := s.after dt
  match (s1.job job).bind s1.commitObject with
  | some c => .next (beatOf s1 job c commitFired)
  | none => .next s1

/-- FAULT_NOTICE (R82): a notice that lands with one record. -/
def execFaultNotice (dt : Nat) (record : List Byte) (s : State) : Host.Outcome State Fault Refusal :=
  .next (landNotice (s.after dt) (faultFrom record))

/-- STEP_ABANDON (R83): at the abandon boundary. -/
def execStepAbandon (dt : Nat) (job : AbandonReport) (s : State) : Host.Outcome State Fault Refusal :=
  let s1 := s.after dt
  .next (abandonStep (s1.settleBy ((s1.job job.job).bind (fun j => j.live.bind (fun r => r.boundary j.notice)))) job.job job.outs)

/-- FAULT_LIST_CLOSE (R83): the notice bound's cycles after the abandon boundary. -/
def execFaultListClose (dt job : Nat) (s : State) : Host.Outcome State Fault Refusal :=
  let s1 := s.after dt
  match s1.job job with
  | none => .next s1
  | some j =>
    match j.closing.bind (fun c => c.boundary j.notice) with
    | some b => .next (closeFaults ((s1.settle (b + j.notice)).advance (b + j.notice)) job (b + j.notice))
    | none => .next s1

/-- SCREED_PACKET_ARRIVAL (R257): a packet from another module reaches a home controller of a die. -/
def execScreedPacketArrival (dt die : Nat) (packet : PacketWork) (s : State) : Host.Outcome State Fault Refusal :=
  let s1 := s.after dt
  let p := packetFrom packet.bytes
  .next (raiseFound (packetLand s1 p die s1.now) p.job packet.errors)

/-- BUCKET_CLOSE (R261): at the bucket's close beat, after the packets that arrive with that stamp. -/
def execBucketClose (dt job : Nat) (work : BucketWork) (s : State) : Host.Outcome State Fault Refusal :=
  let s1 := s.after dt
  let bucket := work.bucket
  match s1.job job with
  | none => .next s1
  | some j =>
    match j.live, s1.bucketEntry j bucket with
    | some r, some b =>
      match closeBeat r b with
      | some t =>
        if b.homed && decide (s1.now ≤ t) && !(SMap.getD ({} : BucketRun) r.homes bucket).closed then
          .next (closeBucket ((s1.settle t).through t) job bucket work.errors)
        else .next s1
      | none => .next s1
    | _, _ => .next s1

/-- CLOSE_WORD_SEND (R263): at Settle the home sends the bucket's close word. -/
def execCloseWordSend (dt job bucket : Nat) (s : State) : Host.Outcome State Fault Refusal :=
  let s1 := s.after dt
  match s1.job job with
  | none => .next s1
  | some j =>
    match j.live, s1.bucketEntry j bucket with
    | some r, some b =>
      let h := SMap.getD ({} : BucketRun) r.homes bucket
      if h.closed && !h.sent && decide (s1.now ≤ r.start + b.settle) then
        .next (((s1.settle (r.start + b.settle)).advance (r.start + b.settle)).updRun job (fun x => { x with
          homes := SMap.set x.homes bucket { h with sent := true },
          sentWords := SMap.set x.sentWords bucket (closeWordOf x.number bucket h).bytes }))
      else .next s1
    | _, _ => .next s1

/-- CLOSE_WORD_ARRIVAL (R263): a close word lands on this module. The word of a bucket that this module homes is the one that the
home has sent, once. -/
def execCloseWordArrival (dt job bucket : Nat) (word : List Byte) (s : State) : Host.Outcome State Fault Refusal :=
  let s1 := s.after dt
  match (s1.job job).bind (fun j => (s1.bucketEntry j bucket).bind (fun b => j.live.map (fun r => (b, r)))) with
  | some (b, r) =>
    if b.homed then
      match SMap.find r.sentWords bucket with
      | some own =>
        if r.words.any (fun w => w.bucket == bucket && w.step == r.number) then .next s1
        else .next (landCloseWord s1 job s1.now (closeWordFrom bucket own))
      | none => .next s1
    else .next (landCloseWord s1 job s1.now (closeWordFrom bucket word))
  | none => .next (landCloseWord s1 job s1.now (closeWordFrom bucket word))

end Sys2Proof.Machine
end

