-- ==== Sys2Proof/Machine/Tick.lean ====
section
/-!
DEFINITION. Sys2Proof/Machine/Tick.lean: what the module does of itself at a management-tick boundary (R413): records posted
(R313), entries and slots freed (R273, R287), budgets refilled (R295), splits and pressure (R289, R298 to R300), steps
planned (R76), the health monitor (R381, R382) and the governor (R460, R461).
-/
namespace Sys2Proof.Machine

/-! ### Results, entries, slots, budgets -/

/-- The bytes of a step batch record (R313, R314). -/
def batchRecord (s : State) (j : Job) (e : EndedStep) (posted : Nat) : List Byte :=
  let dig := match s.jobImage j with | some i => digestHead i.digest | none => 0
  leBytes 8 e.step ++ leBytes 8 e.start ++ leBytes 8 e.stop ++ leBytes 8 posted ++ leBytes 1 e.cls ++ leBytes 1 0
    ++ leBytes 2 e.rows.length ++ leBytes 2 e.held ++ leBytes 2 0 ++ leBytes 8 dig ++ leBytes 4 e.charged ++ leBytes 12 0
    ++ e.rows.flatten

/-- The records of a job that are due posted, in step order (R313): at least one frame after the step's last cycle. -/
def postRecords (s : State) (jid t : Nat) : State :=
  match s.job jid with
  | none => s
  | some j =>
    let due := (s.serve jid).ended.takeWhile (fun e => decide (e.stop + 65536 ≤ t))
    due.foldl (fun (st : State) e =>
      let v := st.serve jid
      let a := resultAt j.part + v.base + e.place * v.placeBytes
      let bs := fitTo 0 v.placeBytes (batchRecord st j e t)
      let st1 : State := { st with hub := Mem.write st.hub a bs }
      st1.updServe jid (fun w => { w with
        ended := w.ended.drop 1, newest := some e.step
        posted := w.posted ++ [{ step := e.step, place := e.place, bytes := 64 + 16 * e.rows.length, entries := e.entries }] })) s

/-- A FINISHED entry may return to FREE (R273). -/
def entryDone (v : Serve) (e : Nat) (r : Req) (t : Nat) : Bool :=
  r.state == .finished && (r.lastPlanned.isSome || decide (r.doneAt < t))
    && !v.plans.any (fun p => p.rows.any (fun x => x.entry == e) || p.moves.any (fun m => m.entry == e))
    && !v.ended.any (fun x => x.entries.contains e) && !v.posted.any (fun x => x.entries.contains e)

/-- FINISHED entries of a job returned to FREE, with the pages that they still hold (R273, R276). -/
def freeEntries (s : State) (jid t : Nat) : State :=
  ((s.entries jid).filter (fun e => entryDone (s.serve jid) e.1 e.2 t)).foldl (fun (st : State) e =>
    let s1 := if e.2.left then st else st.updPool jid (fun v => v.dropPages e.2.pages)
    { s1 with requests := SMap.erase s1.requests e.1 }) s

/-- Retiring versions that no entry pins give up their slots (R287). -/
def freeVersions (s : State) (jid : Nat) : State :=
  let pinned (x : ExpertVersion) : Bool := (s.entries jid).any (fun e =>
    e.2.state != .free && e.2.state != .expired && e.2.set == x.set && e.2.version == x.version)
  s.updServe jid (fun v => { v with versions := v.versions.filter (fun x => !x.retiring || pinned x) })

/-- A budget counter refilled (R295). -/
def Budget.refill (b : Budget) : Budget :=
  let top : Int := 256 * (b.cap : Nat)
  if b.enable = false ∨ top < b.balance then b else { b with balance := min (b.balance + (b.rate : Nat)) top }

/-- Every enabled counter refilled (R295). -/
def refillBudgets (s : State) : State := { s with budgets := s.budgets.map (fun e => (e.1, e.2.refill)) }

/-! ### Splits and pressure (R289, R298 to R301) -/

/-- T_p of R289. -/
def promptDemand (s : State) (jid : Nat) : Nat :=
  (s.entries jid).foldl (fun n e =>
    if e.2.state = .prefill ∨ e.2.state = .waiting ∨ e.2.state = .unparking then n + e.2.remaining else n) 0
/-- N_d of R289. -/
def decodeCount (s : State) (jid : Nat) : Nat := ((s.entries jid).filter (fun e => e.2.state == .decode)).length

/-- The nearest split (R289): where f is a quotient by zero, the current split. -/
def nearestSplit (s : State) (jid : Nat) (j : Job) : Nat :=
  let n := s.srv j 0x3D 1
  let a : Int := (promptDemand s jid : Nat) * sextNat 32 (s.srv j 0x50 4)
  let d : Int := a + (decodeCount s jid : Nat) * sextNat 32 (s.srv j 0x54 4)
  if d = 0 then (s.serve jid).split
  else
    let far (k : Nat) : Nat := (((s.prefillTiles j (s.classes j).length k : Nat) : Int) * d - 12 * a).natAbs
    ((List.range n).foldl (fun (best : Option Nat) k =>
      match best with
      | none => some k
      | some b => if far k < far b then some k else some b) none).getD (s.serve jid).split

/-- The nearest split counted at a tick boundary (R289). -/
def countSplit (s : State) (jid : Nat) (j : Job) : State :=
  let k := nearestSplit s jid j
  s.updServe jid (fun v => { v with nearest := k, nearTicks := if k = v.nearest then v.nearTicks + 1 else 1 })

/-- Fields of the serving policy word (R298): pause ceiling, urgent floor, pause limit, pressure ticks, calm ticks, horizon. -/
def policyField (w i : Nat) : Nat :=
  match i with
  | 0 => bitsOf w 63 61
  | 1 => bitsOf w 60 58
  | 2 => bitsOf w 57 48
  | 3 => bitsOf w 47 44
  | 4 => bitsOf w 43 36
  | _ => bitsOf w 35 16

/-- A sequence is pressed at a tick boundary (R299). -/
def isPressed (s : State) (v : Serve) (t : Nat) (r : Req) : Bool :=
  r.held && !s.budgetHeld r && (decide (policyField v.policy 1 ≤ r.priority)
    || (r.deadline != 0 && decide (r.deadline < t + 65536 * policyField v.policy 5)))

/-- Pressed and calm ticks counted at a tick boundary (R299). -/
def countPressure (s : State) (jid t : Nat) : State :=
  let set := ((s.entries jid).filter (fun e => isPressed s (s.serve jid) t e.2)).map (fun e => e.1)
  s.updServe jid (fun v => { v with
    pressedSet := set, pauseDone := false, resumeDone := false
    pressed := if set.isEmpty then 0 else v.pressed + 1, calm := if set.isEmpty then v.calm + 1 else 0 })

/-! ### The planner (R76) -/

/-- The stamp at which the step after those planned begins, and its number. -/
def planPoint (s : State) (jid : Nat) (j : Job) (t : Nat) : Nat × Nat :=
  let v := s.serve jid
  let rest (n : Nat) : Nat := 65536 * (if j.resting then 2 * n else n)
  let ahead := match j.run with
    | some r => v.plans.filter (fun (p : StepPlan) => p.step != r.number)
    | none => v.plans
  let base := match j.run with
    | some r => r.start + rest r.frames
    | none =>
      match j.nextAt.orElse (fun _ => j.restUntil) with
      | some x => x
      | none => (v.plans.head?.map (fun (p : StepPlan) => p.start)).getD (max (t + mt) (65536 * j.firstFrame))
  (ahead.foldl (fun n (p : StepPlan) => n + rest p.frames) base, j.nextStep + ahead.length + (if j.run.isSome then 1 else 0))

/-- Firmware plans steps of a job here at this tick. -/
def plansHere (s : State) (j : Job) : Bool :=
  j.serve.isSome && j.mode == .running && j.resident && j.ready && j.replayRun.isNone && s.leads j && s.dataPlane
    && j.leaving.isNone && j.pauseAsk.isNone

/-- A withdrawal ends a job before a step (R334). -/
def stopsBefore (j : Job) (step : Nat) : Bool :=
  match j.stop with
  | some x => (match x.last with | some l => decide (l < step) | none => true)
  | none => false

/-- The steps planned from the snapshot of a tick boundary: those that begin at least one tick after it and less than two
(R76); with each its control word (R374). -/
def planSteps (jid t : Nat) : Nat → State → State
  | 0, s => s
  | fuel + 1, s =>
    match s.job jid with
    | none => s
    | some j =>
      let p := planPoint s jid j t
      if plansHere s j && !stopsBefore j p.2 && decide (p.1 < t + 2 * mt) then
        let s1 := planStep s jid p.2 p.1
        match (s1.serve jid).plans.find? (fun x => x.step == p.2) with
        | some x => planSteps jid t fuel (writeControl s1 jid p.2 (isUpdate s1 j x.cls))
        | none => s1
      else s

/-- A job that could run and has no next step due takes one: a serving job's lead module the step that it has planned, any
other job the next frame (R63, R76, R421). -/
def armJob (s : State) (jid t : Nat) : State :=
  match s.job jid with
  | none => s
  | some j =>
    if j.mode == .running && j.resident && j.ready && j.run.isNone && j.nextAt.isNone && j.restUntil.isNone && j.leaving.isNone
        && j.stop.isNone && s.dataPlane then
      if j.serve.isSome && j.replayRun.isNone && s.leads j then
        match (s.serve jid).current j.nextStep with
        | some p => s.updJob jid (fun x => { x with nextAt := some (max p.start (nextFrame t)) })
        | none => s
      else if missedStart s jid (nextFrame t) then lateStart s jid
      else s.updJob jid (fun x => { x with nextAt := some (max (nextFrame t) (65536 * j.firstFrame)) })
    else s

/-- The serving work of a tick boundary: snapshot, splits, pressure, plans (R76, R289, R299). -/
def planJob (s : State) (jid t : Nat) : State :=
  match s.job jid with
  | none => s
  | some j =>
    let s1 := if j.serve.isSome && s.leads j && !j.replay then countPressure (countSplit s jid j) jid t else s
    armJob (planSteps jid t 64 s1) jid t

/-! ### The health monitor (R381, R382) -/

/-- Correctable errors of all controllers, and resends of all links, since the last start. -/
def totals (s : State) : Nat × Nat :=
  (s.ctls.foldl (fun n c => n + c.2.deviceFixes + c.2.linkFixes + c.2.scrubFixes) 0, s.links.foldl (fun n l => n + l.2.resends) 0)

/-- The totals as they stood 1,024 ticks before a stamp. -/
def totalsBefore (h : List HealthTick) (t : Nat) : Nat × Nat :=
  match (h.filter (fun x => decide (x.tick + 1024 * mt ≤ t))).getLast? with
  | some x => (x.fixes, x.resends)
  | none => (0, 0)

/-- The points per input of R381. -/
def riskPoints (s : State) (t : Nat) : List Nat :=
  let now := totals s
  let old := totalsBefore s.health.hist t
  let loss := recentLoss s t
  [4 * (hottest s - 85), 8 * ((s.power.inlet - 450) / 10), 8 * bitLen (now.1 - old.1), if loss.1 then 96 else 0,
   4 * bitLen (now.2 - old.2), if loss.2 then 32 else 0,
   min 96 (24 * (s.health.alarms.filter (fun a => decide (t ≤ a.2 + 1024 * mt))).length)]

/-- The totals that the monitor keeps: those of the last 1,024 ticks and the one before. -/
def keepTicks (h : List HealthTick) (t : Nat) : List HealthTick :=
  let old := h.filter (fun x => decide (x.tick + 1024 * mt ≤ t))
  old.drop (old.length - 1) ++ h.filter (fun x => !decide (x.tick + 1024 * mt ≤ t))

/-- The health monitor at a tick boundary (R381, R382): the score, and a trigger where it fires. -/
def monitor (s : State) (t : Nat) : State :=
  let s0 := s.noteAlarms t
  let pts := riskPoints s0 t
  let score := min 255 (pts.foldl (fun a b => a + b) 0)
  let now := totals s0
  let s1 : State := { s0 with health := { s0.health with
    risk := score, hist := keepTicks (s0.health.hist ++ [{ tick := t, fixes := now.1, resends := now.2 }]) t } }
  let quiet := match s1.health.lastTrigger with | some x => decide (x + s1.health.holdOff * mt ≤ t) | none => true
  if s1.health.threshold ≠ 0 ∧ s1.health.threshold ≤ score ∧ quiet = true ∧ s1.start.stage = .running ∧ s1.failed = false then
    let s2 := s1.jobs.foldl (fun (st : State) e => askCapture st e.1 false) s1
    { s2 with health := { s2.health with lastTrigger := some t }, log := s2.log ++ [.risk t pts] }
  else s1

/-! ### The governor (R460, R461) -/

/-- Contexts that may rest: resident, and single-module (R460). -/
def eligible (s : State) : List (Nat × Job) := s.jobs.filter (fun e => e.2.resident && !s.multi e.2)

/-- The ordering of R461: most ungated lane products per frame first, then the lower partition, then the lower job. -/
def heavier (a b : Nat × Job) : Bool :=
  let x := a.2.load.1 * b.2.load.2
  let y := b.2.load.1 * a.2.load.2
  decide (y < x) || (x == y && (decide (a.2.part < b.2.part) || (a.2.part == b.2.part && decide (a.1 ≤ b.1))))

/-- The governor's decisions at a tick boundary (R460, R461): one further rest, the counts towards an end of rest and a
pause, and the end of a trip's fence. -/
def govern (s : State) (t : Nat) : State :=
  let above (milliwatts : Nat) : Bool := s.power.meanAbove milliwatts
  let mean := powerMean s.power
  let allRest := (eligible s).all (fun e => e.2.resting)
  let s1 : State := { s with power := { s.power with
    tripped := s.power.tripped && !decide (mean < 2000000)
    lowTicks := if mean < 2800000 then s.power.lowTicks + 1 else 0
    highTicks := if above 3000000 && allRest then s.power.highTicks + 1 else 0 } }
  if above 2950000 then
    match firstMin heavier ((eligible s1).filter (fun e => !e.2.resting)) with
    | none => s1
    | some (jid, _) =>
      let s2 := s1.updJob jid (fun x => { x with resting := true, restAsk := some (frameOf t + 1) })
      { s2 with power := { s2.power with resting := s2.power.resting ++ [jid] }, log := s2.log ++ [.governor t 1 jid mean] }
  else s1

/-! ### Compute dies by their error counts (R383) -/

/-- A controller has met eight uncorrectable errors within 4,096 ticks. -/
def Ctl.failing (c : Ctl) : Bool :=
  c.recent.length == 8 && c.recent.all (fun a => c.recent.all (fun b => decide (a ≤ b + 4096 * mt)))

/-- The compute die that a controller serves (R170). -/
def dieOfCtl (c : Nat) : Option Nat := if c < 20 then some (c / 4) else if 32 ≤ c ∧ c < 52 then some ((c - 32) / 4) else none

/-- Dies declared lost by the counts of R170, which firmware reads at a tick boundary (R383, log 133). -/
def declareCounted (s : State) : State :=
  let dies := (s.ctls.filter (fun e => e.2.failing)).filterMap (fun e => dieOfCtl e.1)
  ((List.range 5).filter (fun d => dies.contains d)).foldl (fun (st : State) d => declareLoss st d 3) s

/-! ### The tick (R413) -/

/-- Firmware serves commands: the windows are open. -/
def windowsOpen (s : State) : Bool := s.start.stage == .running || s.start.stage == .service

/-- Every job's part of a tick boundary. -/
def eachJob (s : State) (f : State → Nat → State) : State := s.jobs.foldl (fun (st : State) e => f st e.1) s

/-- The management-tick boundary at the clock's cycle (R413): experts in place, collection and effects; records, entries and slots; budgets;
the planner's snapshot, the plans and the placements; requests for snapshots that messages have brought, the monitor and the
governor; replies; registers. -/
def tick (s0 : State) (errors : List PacketErrors) (t : Nat) : State :=
  let due := s0.answered t
  let s1 := work (collectTo errors 12 (work (settleExperts s0)))
  let s2 := eachJob s1 (fun st jid => freeVersions (freeEntries (postRecords st jid t) jid t) jid)
  let s3 := refillBudgets s2
  let s4 := eachJob s3 (fun st jid => planJob st jid t)
  let s5 := placeContexts (answerResumes s4) t
  let s6 := (govern (declareCounted (monitor (takeRequests s5) t)) t).noteAlarms t
  let s7 : State := { s6 with cmds := s6.cmds.map (Cmd.settled t) }
  updateRegs (postReplies s7 t due) t

end Sys2Proof.Machine
end

