-- ==== Sys2Proof/Machine/TickRows.lean ====
section
/-!
DEFINITION. Sys2Proof/Machine/TickRows.lean: the meanings of the commands of firmware's own time: the management tick (R413),
the governor (R460, R461), splits and pressure (R289, R300, R301), lifetimes and summaries (R281, R282), experts (R286), and
the drive (R379, R447). A command whose event cannot arise in the state changes only the clock (log 5).
-/
namespace Sys2Proof.Machine

/-- MANAGEMENT_TICK (R413): at the next tick boundary. `r` is what firmware reads there (R168, R170). -/
def execManagementTick (dt : Nat) (r : TickReport) (s : State) : Host.Outcome State Fault Refusal :=
  let s1 := s.after dt
  let t := s1.nextTick
  let s2 := (s1.settle t).advance t
  let s3 : State := countAll { s2 with tickAt := some t, power := { s2.power with dieTemps := r.temps } } r.errors
  .next (if windowsOpen s3 then tick s3 r.served t else s3)

/-- The clock stands at the tick boundary that MANAGEMENT_TICK has carried out. -/
def State.atTick (s : State) : Bool := s.tickAt == some s.now

/-! ### The governor (R460, R461) -/

/-- GOVERNOR_REST_END (R461). -/
def execGovernorRestEnd (dt : Nat) (s : State) : Host.Outcome State Fault Refusal :=
  let s1 := s.after dt
  match s1.power.resting.getLast? with
  | some jid =>
    if s1.atTick && decide (64 ≤ s1.power.lowTicks) then
      let s2 := s1.updJob jid (fun x => { x with resting := false, restAsk := none })
      .next { s2 with power := { s2.power with resting := s2.power.resting.dropLast, lowTicks := 0 } }
    else .next s1
  | none => .next s1

/-- GOVERNOR_PAUSE (R460, R461): one multi-module job is paused as by JOB_PAUSE. The count begins again (log 73). -/
def execGovernorPause (dt : Nat) (s : State) : Host.Outcome State Fault Refusal :=
  let s1 := s.after dt
  match firstMin heavier (s1.jobs.filter (fun e => e.2.resident && e.2.mode == .running && s1.multi e.2)) with
  | some (jid, j) =>
    if s1.atTick && decide (2384 ≤ s1.power.highTicks) then
      let frame := frameOf s1.now + 1
      let s2 := if j.busyBefore frame then s1.updJob jid (fun x => { x with pauseAsk := some (min frame (x.pauseAsk.getD frame)) })
        else pauseJob (dropPlans s1 jid none).1 jid
      .next { s2 with power := { s2.power with highTicks := 0 }
                      log := s2.log ++ [.governor s1.now 2 jid (powerMean s1.power)] }
    else .next s1
  | none => .next s1

/-- REST_FRAMES_END (R460): the rest frames of a context end at a step boundary. -/
def execRestFramesEnd (dt job : Nat) (s : State) : Host.Outcome State Fault Refusal :=
  let s1 := s.after dt
  match (s1.job job).bind (fun j => j.restUntil) with
  | some t =>
    if s1.now ≤ t then
      let s2 := (s1.settle t).advance t
      match (s2.job job).bind (fun j => j.restUntil) with
      | some _ => .next (boundary (s2.updJob job (fun x => { x with restUntil := none })) job t 0)
      | none => .next s2
    else .next s1
  | none => .next s1

/-! ### Splits and pressure (R289, R300, R301) -/

/-- SPLIT_CHANGE (R289): the split has been the nearest at 4 consecutive tick boundaries. -/
def execSplitChange (dt job split : Nat) (s : State) : Host.Outcome State Fault Refusal :=
  let s1 := s.after dt
  let v := s1.serve job
  if s1.atTick && v.nearest == split && decide (4 ≤ v.nearTicks) && v.split != split then
    .next (s1.updServe job (fun w => { w with split := split }))
  else .next s1

/-- The sequences that a pressure pause takes, in reverse planning order (R300). -/
def pressureVictims (s : State) (job : Nat) : List Nat :=
  let v := s.serve job
  let top := (v.pressedSet.map (fun e => (s.req e).priority)).foldl max 0
  let all := sortBy Req.before ((s.entries job).filter (fun e => e.2.running && decide (e.2.priority ≤ policyField v.policy 0)
    && decide (e.2.priority < top) && !v.pressedSet.contains e.1))
  (all.reverse.take (policyField v.policy 2)).map (fun e => e.1)

/-- PRESSURE_PAUSE (R300). -/
def execPressurePause (dt job : Nat) (s : State) : Host.Outcome State Fault Refusal :=
  let s1 := s.after dt
  match s1.job job with
  | none => .next s1
  | some j =>
    let v := s1.serve job
    if s1.atTick && !v.pauseDone && policyField v.policy 2 != 0 && decide (1 ≤ v.pressed)
        && decide (policyField v.policy 3 ≤ v.pressed) then
      let es := pressureVictims s1 job
      let s2 := es.foldl (fun (st : State) e => enterParking st e (st.srv j 0x34 4)) s1
      .next (s2.updServe job (fun w => { w with pressure := w.pressure ++ es, pauseDone := true }))
    else .next s1

/-- The sequences that a pressure resume releases (R301): entries of the pressure list that are PARKED or SUMMARY, in planning
order. -/
def pressureReleased (s : State) (job : Nat) : List Nat :=
  let v := s.serve job
  ((sortBy Req.before ((s.entries job).filter (fun e => v.pressure.contains e.1
    && (e.2.state == .parked || e.2.state == .summary) && !e.2.dropped))).take (policyField v.policy 2)).map (fun e => e.1)

/-- PRESSURE_RESUME (R301). -/
def execPressureResume (dt job : Nat) (s : State) : Host.Outcome State Fault Refusal :=
  let s1 := s.after dt
  let v := s1.serve job
  if s1.atTick && !v.resumeDone && policyField v.policy 2 != 0 && decide (1 ≤ v.calm) && decide (policyField v.policy 4 ≤ v.calm) then
    let es := pressureReleased s1 job
    let s2 := es.foldl (fun (st : State) e => st.updReq e (fun r => { r with released := true, first := true })) s1
    .next (s2.updServe job (fun w => { w with pressure := w.pressure.filter (fun e => !es.contains e), resumeDone := true }))
  else .next s1

/-! ### Lifetimes and summaries (R281, R282) -/

/-- Bytes of a summary place on a die (R282). -/
def summaryBytes : Nat := 409600

/-- An entry that enters EXPIRED (R282, R301): its places are free, and a REQ_RESUME that waits for it is answered STALE, which
returns it to FREE. -/
def expireEntry (s : State) (jid e : Nat) : State :=
  let asks (c : Cmd) : Bool := c.opcode == 0x0504 && c.started && leAt (c.call.fields c.block) 4 4 == e
  let s1 := (unpress (freePlaces s jid e) jid e).updReq e (fun r => { r with
    state := .expired, released := false, summarising := false, lifeEnd := none, moving := [], pages := [] })
  if s1.cmds.any (fun c => c.waiting && asks c) then
    let s2 := s1.answer asks (fun _ => s1.reply stStale)
    { s2 with requests := SMap.erase s2.requests e }
  else s1

/-- The pages of a sequence that a summary reads on a die: from tier 1, or from its park places (R281, R282). -/
def summaryPage (s : State) (j : Job) (r : Req) (die k : Nat) : List Byte :=
  let n := s.srv j 4 4
  match SMap.find r.places k with
  | some q => s.readWindow j die true (32 * s.srv j 0x20 8 + q * n) n
  | none => s.readWindow j die false (32 * s.srv j 8 8 + r.pages.getD k 0 * n) n

/-- One pooled row in FP32 (R282): the sum in position order, times the nearest FP32 to one over the count. -/
def pooledRow (w : Nat) (rows : List (List Byte)) : List Byte :=
  let inv := (fpRound false 1 rows.length 0).bits
  (List.range (w / 4)).flatMap (fun i =>
    let x (bs : List Byte) : F32 := BitVec.ofNat 32 (leAt bs (4 * i) 4)
    let sum := match rows with
      | [] => fpZero false
      | a :: rest => rest.foldl (fun acc bs => (fadd acc (x bs)).bits) (x a)
    leBytes 4 (fmul sum inv).bits.toNat)

/-- Pages of each of `m` groups out of `k` pages: the earlier groups take one more where the division is uneven (R282): first
page and pages. -/
def groupPages (k m i : Nat) : Nat × Nat := (i * (k / m) + min i (k % m), k / m + b2n (decide (i < k % m)))

/-- The coarse exponent of a page's KV, which no rule keeps beside the page: a free value (log 74). -/
def pageExponent (draws page : Nat) : Int := coarseExp ((Config.freeBits (draws + page)).toNat % 256)

/-- One pooled row of `w` bytes in the KV form (R282): each segment converted to FP32 with its page's exponent, pooled, and converted
back with the exponent of the group's first page. The bytes that fill no segment, and the row of a group without a page, are free
values from `base` on (log 74). -/
def pooledForm (code w base : Nat) (rows : List (Nat × List Byte)) : List Byte :=
  match rows with
  | [] => freeBytes base w
  | first :: _ =>
    match convCode code with
    | none => fitTo 0 w (pooledRow w (rows.map (fun x => x.2)))
    | some (f, _) =>
      let n := segBytes f
      (List.range (w / n)).flatMap (fun q =>
        let parts := rows.map (fun x => (convert code true (pageExponent (base + w) x.1) (slice x.2 (n * q) n)).bytes)
        (convert code false (pageExponent (base + w) first.1) (pooledRow 4096 parts)).bytes) ++ freeBytes base (w % n)

/-- Free values that one pooled row may take: its bytes, and the exponents of 4,096 pages. -/
def pooledDraws (w : Nat) : Nat := w + 4096

/-- The pooled rows of a sequence on a die (R282). -/
def pooledBytes (s : State) (j : Job) (r : Req) (die m : Nat) : List Byte :=
  let w := s.srv j 4 4 / 64
  let kept := r.length - min r.length 1024
  (List.range m).flatMap (fun i =>
    let g := groupPages (ceilDiv kept 64) m i
    let rows := (List.range g.2).flatMap (fun p =>
      let page := summaryPage s j r die (g.1 + p)
      ((List.range 64).filter (fun x => decide (64 * (g.1 + p) + x < kept))).map (fun x => (g.1 + p, slice page (w * x) w)))
    pooledForm (s.srv j 0x3C 1) w (s.draws + (64 * die + i) * pooledDraws w) rows)

/-- The header of a summary state (R282). -/
def summaryHeader (r : Req) (m : Nat) : List Byte :=
  let n := min r.length 1024
  let kept := slice r.tokens (r.length - r.base - n) n
  fitTo 0 8192 (fitTo 0 4096 (kept.flatMap (leBytes 4)) ++ leBytes 4 n ++ leBytes 4 m ++ leBytes 4 r.length ++ leBytes 4 r.version)

/-- A summary written to its place on every die (R282). -/
def writeSummary (s : State) (j : Job) (r : Req) (place : Nat) : State :=
  let m := pooledRows (s.srv j 4 4) r.length
  let w := s.srv j 4 4 / 64
  ((List.range 5).filter s.dieUp).foldl (fun (st : State) die =>
    st.writeWindow j die true (32 * s.srv j 0x28 8 + place * summaryBytes) (summaryHeader r m ++ pooledBytes s j r die m))
    { s with draws := s.draws + 320 * pooledDraws w }

/-- PARK_LIFETIME_END (R281): the sequence is summarised from its park places. -/
def execParkLifetimeEnd (dt entry : Nat) (s : State) : Host.Outcome State Fault Refusal :=
  let s1 := s.after dt
  match (s1.req entry).lifeEnd with
  | some t =>
    if (s1.req entry).state = .parked ∧ s1.now ≤ t then
      let s2 := (s1.settle t).advance t
      .next (s2.updReq entry (fun r => if r.state = .parked then { r with summarising := true, lifeEnd := none } else r))
    else .next s1
  | none => .next s1

/-- SUMMARY_LIFETIME_END (R282). -/
def execSummaryLifetimeEnd (dt entry : Nat) (s : State) : Host.Outcome State Fault Refusal :=
  let s1 := s.after dt
  match (s1.req entry).lifeEnd with
  | some t =>
    if (s1.req entry).state = .summary ∧ s1.now ≤ t then
      let s2 := (s1.settle t).advance t
      .next (if (s2.req entry).state = .summary then expireEntry s2 (s2.req entry).job entry else s2)
    else .next s1
  | none => .next s1

/-- What a sequence held before its summary is released: its pages in tier 1, its park places (R281). -/
def releaseParked (s : State) (jid e : Nat) : State :=
  let r := s.req e
  (s.updPool jid (fun v => { v.dropPages r.pages with
    parkUsed := v.parkUsed.filter (fun q => !(r.places.any (fun x => x.2 == q))) })).updReq e (fun x => { x with
    pages := [], places := [], moving := [], summarising := false })

/-- SUMMARY_COMPLETE (R282, R304): the summary state stands in the lowest free place, or the entry enters EXPIRED. -/
def execSummaryComplete (dt entry : Nat) (s : State) : Host.Outcome State Fault Refusal :=
  let s1 := s.after dt
  let r := s1.req entry
  match s1.job r.job with
  | none => .next s1
  | some j =>
    if !r.summarising || (s1.serve r.job).coming entry != 0 then .next s1
    else
      let v := s1.serve r.job
      let s2 := releaseParked s1 r.job entry
      if r.dropped then .next (finishEntry s2 r.job entry)
      else
        match (List.range (s1.srv j 0x30 4)).find? (fun q => !v.sumUsed.contains q) with
        | none => .next (expireEntry s2 r.job entry)
        | some q =>
          let s3 := writeSummary s1 j r q
          let s4 := releaseParked s3 r.job entry
          .next ((s4.updServe r.job (fun w => { w with sumUsed := w.sumUsed ++ [q] })).updReq entry (fun x => { x with
            state := .summary, sumPlace := some q
            tokens := if x.remaining = 0 then x.tokens.take (x.length - x.base) else x.tokens
            lifeEnd := some (s4.now + s4.srv j 0x38 4 * mt) }))

/-! ### Experts, the drive, memory -/

/-- EXPERT_WEIGHTS_IN_PLACE (R286). -/
def execExpertWeightsInPlace (dt job set version : Nat) (s : State) : Host.Outcome State Fault Refusal :=
  .next (putExperts (s.after dt) job set version)

/-- CHECKPOINT_INTERVAL_END (R373, R379): the lead requests a snapshot, with the checkpoint flag where there is a drive. -/
def execCheckpointIntervalEnd (dt job : Nat) (s : State) : Host.Outcome State Fault Refusal :=
  let s1 := s.after dt
  match (s1.job job).bind (fun j => j.intervalEnd) with
  | some t =>
    if s1.now ≤ t then
      let s2 := (s1.settle t).advance t
      let s3 := match s2.job job with
        | some j => if s2.leads j then askCapture s2 job s2.drive.present else s2
        | none => s2
      .next (s3.updJob job (fun j => { j with intervalEnd := some (t + j.interval * mt) }))
    else .next s1
  | none => .next s1

/-- CHECKPOINT_COMPLETE (R379): the copy to the drive is complete, where the drive is there. -/
def execCheckpointComplete (dt job : Nat) (s : State) : Host.Outcome State Fault Refusal :=
  let s1 := s.after dt
  .next (if s1.drive.present then completeCheckpoint s1 job else s1)

/-- SNAPSHOT_COMPLETE (R377), with the errors that the snapshot engine's accesses have met (R476) and the parts of partners that have
landed here (R375). -/
def execSnapshotComplete (dt : Nat) (job : SnapWork) (s : State) : Host.Outcome State Fault Refusal :=
  .next (completeSnapshot (job.parts.foldl (fun (st : State) x => landPart st job.parts x) (raiseFound (s.after dt) job.job job.errors)) job.job)

/-- DRIVE_FAILURE (R447): absent until the next start; a checkpoint being written is not completed. -/
def execDriveFailure (dt : Nat) (s : State) : Host.Outcome State Fault Refusal :=
  let s1 := s.after dt
  .next { s1 with
    drive := { s1.drive with present := false }
    jobs := s1.jobs.map (fun e => (e.1, { e.2 with copying := none })) }

/-- MEMORY_ZEROED (R174): the released tier-1 memory of a die is zero. -/
def execMemoryZeroed (dt die : Nat) (s : State) : Host.Outcome State Fault Refusal :=
  let s1 := s.after dt
  .next { s1 with
    tier1 := (s1.clearing.filter (fun r => r.1 == die)).foldl (fun (m : SMap Mem) r =>
      SMap.upd [] m die (fun x => Mem.zero x (r.2.1 * gib) (r.2.2 * gib))) s1.tier1
    clearing := s1.clearing.filter (fun r => r.1 != die) }

/-- MEMORY_TEMPERATURE_CHANGE (R167): a controller's device crosses 85 °C. -/
def execMemoryTemperatureChange (dt ctl : Nat) (hot : Bool) (s : State) : Host.Outcome State Fault Refusal :=
  let s1 := s.after dt
  .next (s1.updCtl ctl (fun c => { c with hot := hot }))

/-! ### Dies, restores, switches -/

/-- DIE_LOSS (R383, R384, R387, R465): declared at this cycle, in effect at the next frame; a second loss fails the module. From P3 to
P8 the die is lost at start-up (R434). -/
def execDieLoss (dt die cause : Nat) (s : State) : Host.Outcome State Fault Refusal :=
  let s1 := s.after dt
  match s1.start.stage with
  | .running | .service => .next (declareLoss s1 die cause)
  | .phase n =>
    .next (if 3 ≤ n && s1.dieUp die then loseAtStart { s1 with log := s1.log ++ [.dieLost s1.now die cause] } [die] else s1)
  | _ => .next s1

/-- The beginning of the first frame boundary from now on, where a management action takes effect (R50). -/
def State.atFrame (s : State) : State := (s.settle (frameUp s.now)).reach (frameUp s.now)

/-- REMAP_COMPLETE (R386): the alternate body is filled and verified, with the bytes that buddies hold. -/
def execRemapComplete (dt job : Nat) (remote : List (Nat × List Byte)) (s : State) : Host.Outcome State Fault Refusal :=
  let s1 := (s.after dt).atFrame
  match s1.job job with
  | some j => .next (if j.mode = .remapping then remap s1 job remote else s1)
  | none => .next s1

/-- RESTORE_VERIFIED (R390): the checks of SNAP_VERIFY, or a restore's writes and checks, with the bytes that buddies hold. -/
def execRestoreVerified (dt job : Nat) (remote : List (Nat × List Byte)) (s : State) : Host.Outcome State Fault Refusal :=
  let s1 := (s.after dt).atFrame
  match s1.job job with
  | some j =>
    let s2 := answerVerify s1 job j remote
    .next (if canRestore s2 j then runRestore s2 job remote else s2)
  | none => .next s1

/-- A context of a switch has stopped (R332). -/
def Job.stopped (j : Job) : Bool := j.run.isNone && j.nextAt.isNone && j.restUntil.isNone

/-- A switch's phases may begin: its outgoing contexts have stopped, and no context that stays holds its tiles (R332). -/
def switchReady (s : State) (w : Switch) : Bool :=
  !w.begun && (s.some_ w.outgoing).all (fun e => e.2.stopped)
    && w.binding.all (fun b => (s.jobsOf w.part).all (fun e =>
      !e.2.resident || w.outgoing.contains e.1 || e.2.binding.all (fun x => x.2 != b.2)))

/-- CONTEXT_SWITCH_START (R332): at the first frame boundary from now on. -/
def execContextSwitchStart (dt job : Nat) (s : State) : Host.Outcome State Fault Refusal :=
  let s1 := s.after dt
  match s1.switches.find? (fun w => w.incoming == job) with
  | none => .next s1
  | some w =>
    let t := max (frameUp s1.now) (nextFrame w.decided)
    let s2 := (s1.settle t).advance t
    if switchReady s1 w && s2.switches.contains w && switchReady s2 w then .next (beginSwitch s2 w t) else .next s1

/-- CONTEXT_SWITCH_PHASE (R332): the phase that a die runs ends after the frames that its bytes take. -/
def execContextSwitchPhase (dt job die : Nat) (s : State) : Host.Outcome State Fault Refusal :=
  let s1 := s.after dt
  match s1.switches.find? (fun w => w.incoming == job) with
  | none => .next s1
  | some w =>
    let k := SMap.getD 5 w.now_ die
    if w.begun && k != 5 then
      let least := SMap.getD 0 w.phases (8 * die + k) + 65536 * phaseFrames s1 w die k
      if s1.now ≤ least then
        let s2 := (s1.settle least).advance least
        if s2.switches.contains w then .next (endSwitchPhase s2 w die least) else .next s2
      else .next s1
    else .next s1

end Sys2Proof.Machine
end

