-- ==== Sys2Proof/Machine/TransferRows.lean ====
section
/-!
DEFINITION. Sys2Proof/Machine/TransferRows.lean: the commands of units 6 to 9 (R251, R360 to R364, R475), the repeat (R65)
and the completions (R69, R347).
-/
namespace Sys2Proof.Machine

/-- The transfer entry that a tile's descriptor names in its job's tables: whether it is a receive, and its mode
(R361). None where the tile runs no job or the job has no such entry. -/
def State.transferKind (s : State) (tile : Nat) (lath : Bool) (d : Desc) : Option (Bool × Nat) :=
  ((s.tile tile).job.bind s.job).bind (fun j =>
    match s.transfer j lath false d with
    | some e => some (false, e.mode)
    | none => (s.transfer j lath true d).map (fun e => (true, e.mode)))

/-- The op class of a Screed issue, by where its home lies (R71). -/
def reachClass : Reach → Nat
  | .die => 0x70
  | .otherDie => 0x71
  | .otherModule => 0x72

/-- DIE_TO_DIE_SEND (R364): Class 0x50 send of units across one die-to-die hop, compacting where its entry's mode says so (R361,
R362). -/
def execDieToDieSend (dt tile : Nat) (r : IssueRec) (s : State) : Host.Outcome State Fault Refusal :=
  issue s dt tile .hawk 0x50 r

/-- DIE_TO_DIE_SEND_VIA (R364): Class 0x51 send through an intermediate die, compacting where its entry's mode says so (R361,
R362). -/
def execDieToDieSendVia (dt tile : Nat) (r : IssueRec) (s : State) : Host.Outcome State Fault Refusal :=
  issue s dt tile .hawk 0x51 r

/-- DIE_TO_DIE_RECEIVE (R363): Class 0x50 or 0x51 receive issued by the receiving image, landing at its latency; a
scatter landing where its entry's mode says so (R361, R363). -/
def execDieToDieReceive (dt tile : Nat) (via : Bool) (r : IssueRec) (s : State) : Host.Outcome State Fault Refusal :=
  issue s dt tile .hawk (if via then 0x51 else 0x50) r

/-- LATH_SEND (R362): Class 0x60 plain send places flits at successive send points of a link. -/
def execLathSend (dt tile : Nat) (r : IssueRec) (s : State) : Host.Outcome State Fault Refusal :=
  issue s dt tile .hawk 0x60 r

/-- COMPACTING_SEND (R362): A send in compacting mode forms k index and probability entries from non-zero values. -/
def execCompactingSend (dt tile : Nat) (r : IssueRec) (s : State) : Host.Outcome State Fault Refusal :=
  issue s dt tile .hawk 0x60 r

/-- LATH_RECEIVE (R363): Class 0x60 plain receive landing at the declared delivery bound. -/
def execLathReceive (dt tile : Nat) (r : IssueRec) (s : State) : Host.Outcome State Fault Refusal :=
  issue s dt tile .hawk 0x60 r

/-- SCATTER_RECEIVE (R363): A receive in scatter mode writes each entry's probability at its shard index. -/
def execScatterReceive (dt tile : Nat) (r : IssueRec) (s : State) : Host.Outcome State Fault Refusal :=
  issue s dt tile .hawk 0x60 r

/-- SCREED_PART (R251): A Screed part issue sends a contribution packet, or updates the residual store in hold mode.
-/
def execScreedPart (dt tile : Nat) (reach : Reach) (r : IssueRec) (s : State) : Host.Outcome State Fault Refusal :=
  issue s dt tile .hawk (reachClass reach) r

/-- SCREED_CENSUS (R256): A census part forms residual sums and counts them by bit length. -/
def execScreedCensus (dt tile : Nat) (reach : Reach) (r : IssueRec) (s : State) : Host.Outcome State Fault Refusal :=
  issue s dt tile .hawk (reachClass reach) r

/-- SCREED_SELECT (R256): A select part fixes the cut and appends selected elements to the list. -/
def execScreedSelect (dt tile : Nat) (reach : Reach) (r : IssueRec) (s : State) : Host.Outcome State Fault Refusal :=
  issue s dt tile .hawk (reachClass reach) r

/-- SYNC_ARRIVE_SAME_DIE (R475): Class 0x80 arrive on a sync object of the tile's own die. -/
def execSyncArriveSameDie (dt tile : Nat) (r : IssueRec) (s : State) : Host.Outcome State Fault Refusal :=
  issue s dt tile .hawk 0x80 r

/-- SYNC_ARRIVE_OTHER_DIE (R475): Class 0x81 arrive on another die of the module. -/
def execSyncArriveOtherDie (dt tile : Nat) (r : IssueRec) (s : State) : Host.Outcome State Fault Refusal :=
  issue s dt tile .hawk 0x81 r

/-- SYNC_ARRIVE_OTHER_MODULE (R475): Class 0x82 arrive sent as a sync flit to another module. -/
def execSyncArriveOtherModule (dt tile : Nat) (r : IssueRec) (s : State) : Host.Outcome State Fault Refusal :=
  issue s dt tile .hawk 0x82 r

/-- A repeat record and the records that it spans, of a list that begins with it (R65). -/
def spanned (records : List (BitVec 128)) : List Nat :=
  match records with
  | w :: ws => w.toNat :: (ws.map (fun x => x.toNat)).take (bitsOf w.toNat 19 8)
  | [] => []

/-- The issues of a repeat and its span from the step's first cycle on, in the order of their cycles (R65). -/
def repeatList (index : Nat) (ws : List Nat) : List (Nat × Nat × Nat × IssueRec) :=
  sortBy (fun x y => decide (x.1 ≤ y.1)) (unroll 5 (2 * ws.length + 8) 0 (ws.zipIdx.map (fun e => (index + e.2, e.1))))

/-- A repeat and its span are what a tile's sequencer has before it in this cycle (R65, R67). -/
def State.repeating (s : State) (tile index : Nat) (ws : List Nat) : Bool :=
  match ws with
  | w :: _ =>
    bitsOf w 95 92 == 15 && s.recordNow tile index == some w &&
      (s.stepOf tile).any (fun x => (s.program x.1 tile x.2.cls).any (fun p => (p.drop index).take ws.length == ws))
  | [] => false

/-- REPEAT (R65): A repeat record runs the spanned records once per iteration at its stride. `records` are the repeat
record and the records that follow it in the program. Where the tile's program does not hold them at that cycle the clock moves, and
nothing else (log 5). -/
def execRepeatRec (dt tile index : Nat) (records : List (BitVec 128)) (s : State) :
    Host.Outcome State Fault Refusal :=
  let ws := spanned records
  let l := repeatList index ws
  if unrolledOk tile l then
    if unrolledIn l then
      let u := s.after dt
      .next (if u.repeating tile index ws then
          repeatIssues (u.passTo tile (index + ws.length)) tile (u.now - bitsOf (ws.headD 0) 127 96) l
        else u)
    else .fault .beyondScratchpad
  else .refused .unassigned

/-- The status with which an operation completes, told to its micro-operations in flight (R168). -/
def setStatus (s : State) (id : Nat) (st : MemStatus) : State :=
  { s with inflight := s.inflight.map (fun (x : Op) => if x.id = id then { x with status := st } else x) }

/-- The cycle at which an operation in flight completes, or its use is delivered. -/
def dueOf (s : State) (id : Nat) (deliver : Bool) : Option Nat :=
  (s.inflight.find? (fun (x : Op) => x.id == id && (match x.act with
    | .complete _ => !deliver
    | .deliver _ _ => deliver
    | _ => false))).map (fun x => x.due)

/-- OPERATION_COMPLETE (R69): An operation completes at its listed latency, moving its set entry from PENDING to READY
and delivering its results. `id` is the issue, in the order of issues. An operation that is not told of completes
without error. -/
def execOperationComplete (dt id : Nat) (status : MemStatus) (s : State) : Host.Outcome State Fault Refusal :=
  let s1 := setStatus (s.after dt) id status
  match dueOf s1 id false with
  | some t => .next ((s1.settle t).advance t)
  | none => .next s1

/-- TRANSFER_DELIVERY (R347): At a receive's delivery cycle the transfer completes, or TRANSFER_ABSENT or
TRANSFER_ERROR is raised. -/
def execTransferDelivery (dt id : Nat) (status : MemStatus) (s : State) : Host.Outcome State Fault Refusal :=
  let s1 := setStatus (s.after dt) id status
  match dueOf s1 id true with
  | some t => .next ((s1.settle t).advance t)
  | none => .next s1

end Sys2Proof.Machine
end

