-- ==== Sys2Proof/Machine/VectorRows.lean ====
section
/-!
DEFINITION. Sys2Proof/Machine/VectorRows.lean: the commands of unit 3 (R147 to R150, R187 to R202), one for each function.
-/
namespace Sys2Proof.Machine

/-- FADD (R147): Vector FP32 add. -/
def execFadd (dt tile : Nat) (r : IssueRec) (s : State) : Host.Outcome State Fault Refusal :=
  issue s dt tile .hawk 0x20 r

/-- FSUB (R147): Vector FP32 subtract. -/
def execFsub (dt tile : Nat) (r : IssueRec) (s : State) : Host.Outcome State Fault Refusal :=
  issue s dt tile .hawk 0x20 r

/-- FMUL (R147): Vector FP32 multiply. -/
def execFmul (dt tile : Nat) (r : IssueRec) (s : State) : Host.Outcome State Fault Refusal :=
  issue s dt tile .hawk 0x20 r

/-- FFMA (R147): Vector fused multiply-add with one rounding. -/
def execFfma (dt tile : Nat) (r : IssueRec) (s : State) : Host.Outcome State Fault Refusal :=
  issue s dt tile .hawk 0x20 r

/-- FMAX (R147): Vector maximumNumber. -/
def execFmax (dt tile : Nat) (r : IssueRec) (s : State) : Host.Outcome State Fault Refusal :=
  issue s dt tile .hawk 0x20 r

/-- FMIN (R147): Vector minimumNumber. -/
def execFmin (dt tile : Nat) (r : IssueRec) (s : State) : Host.Outcome State Fault Refusal :=
  issue s dt tile .hawk 0x20 r

/-- FCMP (R147): Vector FP32 compare into a predicate register. -/
def execFcmp (dt tile : Nat) (r : IssueRec) (s : State) : Host.Outcome State Fault Refusal :=
  issue s dt tile .hawk 0x20 r

/-- FSEL (R147): Vector select under a predicate, copying bits unchanged. -/
def execFsel (dt tile : Nat) (r : IssueRec) (s : State) : Host.Outcome State Fault Refusal :=
  issue s dt tile .hawk 0x20 r

/-- CVTFS (R147): Vector conversion of FP32 to S32. -/
def execCvtfs (dt tile : Nat) (r : IssueRec) (s : State) : Host.Outcome State Fault Refusal :=
  issue s dt tile .hawk 0x20 r

/-- CVTSF (R147): Vector conversion of S32 to FP32. -/
def execCvtsf (dt tile : Nat) (r : IssueRec) (s : State) : Host.Outcome State Fault Refusal :=
  issue s dt tile .hawk 0x20 r

/-- FNEG (R147): Vector sign inversion. -/
def execFneg (dt tile : Nat) (r : IssueRec) (s : State) : Host.Outcome State Fault Refusal :=
  issue s dt tile .hawk 0x20 r

/-- FABS (R147): Vector sign clear. -/
def execFabs (dt tile : Nat) (r : IssueRec) (s : State) : Host.Outcome State Fault Refusal :=
  issue s dt tile .hawk 0x20 r

/-- IADD (R147): Vector integer add modulo 2^32. -/
def execIadd (dt tile : Nat) (r : IssueRec) (s : State) : Host.Outcome State Fault Refusal :=
  issue s dt tile .hawk 0x20 r

/-- ISUB (R147): Vector integer subtract modulo 2^32. -/
def execIsub (dt tile : Nat) (r : IssueRec) (s : State) : Host.Outcome State Fault Refusal :=
  issue s dt tile .hawk 0x20 r

/-- IMULLO (R147): Vector low 32 bits of an integer product. -/
def execImullo (dt tile : Nat) (r : IssueRec) (s : State) : Host.Outcome State Fault Refusal :=
  issue s dt tile .hawk 0x20 r

/-- IMULHU (R147): Vector high 32 bits of an unsigned product. -/
def execImulhu (dt tile : Nat) (r : IssueRec) (s : State) : Host.Outcome State Fault Refusal :=
  issue s dt tile .hawk 0x20 r

/-- IAND (R147): Vector bitwise AND. -/
def execIand (dt tile : Nat) (r : IssueRec) (s : State) : Host.Outcome State Fault Refusal :=
  issue s dt tile .hawk 0x20 r

/-- IOR (R147): Vector bitwise OR. -/
def execIor (dt tile : Nat) (r : IssueRec) (s : State) : Host.Outcome State Fault Refusal :=
  issue s dt tile .hawk 0x20 r

/-- IXOR (R147): Vector bitwise XOR. -/
def execIxor (dt tile : Nat) (r : IssueRec) (s : State) : Host.Outcome State Fault Refusal :=
  issue s dt tile .hawk 0x20 r

/-- ISHL (R147): Vector shift left. -/
def execIshl (dt tile : Nat) (r : IssueRec) (s : State) : Host.Outcome State Fault Refusal :=
  issue s dt tile .hawk 0x20 r

/-- ISHRL (R147): Vector logical shift right. -/
def execIshrl (dt tile : Nat) (r : IssueRec) (s : State) : Host.Outcome State Fault Refusal :=
  issue s dt tile .hawk 0x20 r

/-- ISHRA (R147): Vector arithmetic shift right. -/
def execIshra (dt tile : Nat) (r : IssueRec) (s : State) : Host.Outcome State Fault Refusal :=
  issue s dt tile .hawk 0x20 r

/-- IROTL (R147): Vector rotate left. -/
def execIrotl (dt tile : Nat) (r : IssueRec) (s : State) : Host.Outcome State Fault Refusal :=
  issue s dt tile .hawk 0x20 r

/-- IMAX (R147): Vector signed maximum. -/
def execImax (dt tile : Nat) (r : IssueRec) (s : State) : Host.Outcome State Fault Refusal :=
  issue s dt tile .hawk 0x20 r

/-- IMIN (R147): Vector signed minimum. -/
def execImin (dt tile : Nat) (r : IssueRec) (s : State) : Host.Outcome State Fault Refusal :=
  issue s dt tile .hawk 0x20 r

/-- ICMP (R147): Vector signed compare into a predicate register. -/
def execIcmp (dt tile : Nat) (r : IssueRec) (s : State) : Host.Outcome State Fault Refusal :=
  issue s dt tile .hawk 0x20 r

/-- ISEL (R147): Vector integer select under a predicate. -/
def execIsel (dt tile : Nat) (r : IssueRec) (s : State) : Host.Outcome State Fault Refusal :=
  issue s dt tile .hawk 0x20 r

/-- BCAST (R147): Vector broadcast of one lane to every lane. -/
def execBcast (dt tile : Nat) (r : IssueRec) (s : State) : Host.Outcome State Fault Refusal :=
  issue s dt tile .hawk 0x20 r

/-- FDIV (R147): Vector correctly rounded divide. -/
def execFdiv (dt tile : Nat) (r : IssueRec) (s : State) : Host.Outcome State Fault Refusal :=
  issue s dt tile .hawk 0x21 r

/-- FSQRT (R147): Vector correctly rounded square root. -/
def execFsqrt (dt tile : Nat) (r : IssueRec) (s : State) : Host.Outcome State Fault Refusal :=
  issue s dt tile .hawk 0x21 r

/-- FRSQRT (R147): Vector reciprocal square root within 1 ulp. -/
def execFrsqrt (dt tile : Nat) (r : IssueRec) (s : State) : Host.Outcome State Fault Refusal :=
  issue s dt tile .hawk 0x21 r

/-- FEXP (R147): Vector e to the power A. -/
def execFexp (dt tile : Nat) (r : IssueRec) (s : State) : Host.Outcome State Fault Refusal :=
  issue s dt tile .hawk 0x22 r

/-- FLOG (R147): Vector natural logarithm. -/
def execFlog (dt tile : Nat) (r : IssueRec) (s : State) : Host.Outcome State Fault Refusal :=
  issue s dt tile .hawk 0x22 r

/-- FTANH (R147): Vector hyperbolic tangent. -/
def execFtanh (dt tile : Nat) (r : IssueRec) (s : State) : Host.Outcome State Fault Refusal :=
  issue s dt tile .hawk 0x22 r

/-- FSIG (R147): Vector sigmoid. -/
def execFsig (dt tile : Nat) (r : IssueRec) (s : State) : Host.Outcome State Fault Refusal :=
  issue s dt tile .hawk 0x22 r

/-- FERF (R147): Vector error function. -/
def execFerf (dt tile : Nat) (r : IssueRec) (s : State) : Host.Outcome State Fault Refusal :=
  issue s dt tile .hawk 0x22 r

/-- FEXP2 (R147): Vector 2 to the power A. -/
def execFexp2 (dt tile : Nat) (r : IssueRec) (s : State) : Host.Outcome State Fault Refusal :=
  issue s dt tile .hawk 0x22 r

/-- FLOG2 (R147): Vector base-2 logarithm. -/
def execFlog2 (dt tile : Nat) (r : IssueRec) (s : State) : Host.Outcome State Fault Refusal :=
  issue s dt tile .hawk 0x22 r

/-- RFSUM (R108): Vector FP32 sum over 128 lanes by the fixed pairwise tree. -/
def execRfsum (dt tile : Nat) (r : IssueRec) (s : State) : Host.Outcome State Fault Refusal :=
  issue s dt tile .hawk 0x23 r

/-- RFMAX (R108): Vector maximum over 128 lanes. -/
def execRfmax (dt tile : Nat) (r : IssueRec) (s : State) : Host.Outcome State Fault Refusal :=
  issue s dt tile .hawk 0x23 r

/-- RFMIN (R108): Vector minimum over 128 lanes. -/
def execRfmin (dt tile : Nat) (r : IssueRec) (s : State) : Host.Outcome State Fault Refusal :=
  issue s dt tile .hawk 0x23 r

/-- RISUM (R147): Vector integer sum over 128 lanes modulo 2^32. -/
def execRisum (dt tile : Nat) (r : IssueRec) (s : State) : Host.Outcome State Fault Refusal :=
  issue s dt tile .hawk 0x23 r

/-- RARGMAX (R148): Vector index of the largest enabled lane, lowest lane on ties. -/
def execRargmax (dt tile : Nat) (r : IssueRec) (s : State) : Host.Outcome State Fault Refusal :=
  issue s dt tile .hawk 0x23 r

/-- FINIT (R187): Clears a row-state part and sets its configuration and cursors. -/
def execFinit (dt tile : Nat) (r : IssueRec) (s : State) : Host.Outcome State Fault Refusal :=
  issue s dt tile .hawk 0x24 r

/-- FSTAT (R190): Updates the anchor and fixed-point sums of a row part over one segment. -/
def execFstat (dt tile : Nat) (r : IssueRec) (s : State) : Host.Outcome State Fault Refusal :=
  issue s dt tile .hawk 0x24 r

/-- FHIST (R192): Bins the active teacher entries of a segment into the row histogram. -/
def execFhist (dt tile : Nat) (r : IssueRec) (s : State) : Host.Outcome State Fault Refusal :=
  issue s dt tile .hawk 0x24 r

/-- FSELECT (R201): Fixes the cut depth and writes the selected teacher probabilities of a segment. -/
def execFselect (dt tile : Nat) (r : IssueRec) (s : State) : Host.Outcome State Fault Refusal :=
  issue s dt tile .hawk 0x24 r

/-- FGRAD (R194): Computes a segment's soft-target gradient and adds to the loss part. -/
def execFgrad (dt tile : Nat) (r : IssueRec) (s : State) : Host.Outcome State Fault Refusal :=
  issue s dt tile .hawk 0x24 r

/-- FSAVE (R193): Writes a row part's state to vector lanes. -/
def execFsave (dt tile : Nat) (r : IssueRec) (s : State) : Host.Outcome State Fault Refusal :=
  issue s dt tile .hawk 0x24 r

/-- FMERGE (R193): Merges saved lanes into a row part. -/
def execFmerge (dt tile : Nat) (r : IssueRec) (s : State) : Host.Outcome State Fault Refusal :=
  issue s dt tile .hawk 0x24 r

/-- FCLOSE (R196): Writes a row's KL and CE losses and flags, or the top-k record header. -/
def execFclose (dt tile : Nat) (r : IssueRec) (s : State) : Host.Outcome State Fault Refusal :=
  issue s dt tile .hawk 0x24 r

end Sys2Proof.Machine
end

