-- ==== Sys2Proof/Machine/Dispatch.lean ====
section
/-!
DEFINITION. Sys2Proof/Machine/Dispatch.lean: the effect of a command, one arm for each row of the table.
-/
namespace Sys2Proof.Machine

def exec (i : Instr) (s : State) : Host.Outcome State Fault Refusal :=
  match i with
  | .feedApplied dt => Sys2Proof.Machine.execFeedApplied dt s
  | .feedRemoved dt => Sys2Proof.Machine.execFeedRemoved dt s
  | .feedVoltageChange dt millivolts => Sys2Proof.Machine.execFeedVoltageChange dt millivolts s
  | .feedOvervoltageOpen dt => Sys2Proof.Machine.execFeedOvervoltageOpen dt s
  | .feedUndervoltageTurnOff dt => Sys2Proof.Machine.execFeedUndervoltageTurnOff dt s
  | .hotswapOvercurrent dt => Sys2Proof.Machine.execHotswapOvercurrent dt s
  | .enableContactMate dt => Sys2Proof.Machine.execEnableContactMate dt s
  | .enableContactBreak dt => Sys2Proof.Machine.execEnableContactBreak dt s
  | .ejectorLatchOpen dt => Sys2Proof.Machine.execEjectorLatchOpen dt s
  | .serviceButtonPress dt => Sys2Proof.Machine.execServiceButtonPress dt s
  | .serviceButtonRelease dt => Sys2Proof.Machine.execServiceButtonRelease dt s
  | .serviceButtonHeld3s dt => Sys2Proof.Machine.execServiceButtonHeld3s dt s
  | .serviceButtonHeld10s dt => Sys2Proof.Machine.execServiceButtonHeld10s dt s
  | .coolantSensorChange dt inlet outlet flow => Sys2Proof.Machine.execCoolantSensorChange dt inlet outlet flow s
  | .coolantEmergencyTimeout dt => Sys2Proof.Machine.execCoolantEmergencyTimeout dt s
  | .hubThermalTrip dt => Sys2Proof.Machine.execHubThermalTrip dt s
  | .powerStageAlarm dt rail number active => Sys2Proof.Machine.execPowerStageAlarm dt rail number active s
  | .powerSample dt milliwatts => Sys2Proof.Machine.execPowerSample dt milliwatts s
  | .startPhaseComplete dt r => Sys2Proof.Machine.execStartPhaseComplete dt r s
  | .startPhaseTimeout dt die => Sys2Proof.Machine.execStartPhaseTimeout dt die s
  | .hubWatchdogTimeout dt => Sys2Proof.Machine.execHubWatchdogTimeout dt s
  | .startRetry dt => Sys2Proof.Machine.execStartRetry dt s
  | .frameWord dt word err => Sys2Proof.Machine.execFrameWord dt word err s
  | .timingFlit dt link f err => Sys2Proof.Machine.execTimingFlit dt link f err s
  | .referenceAbsentTimeout dt => Sys2Proof.Machine.execReferenceAbsentTimeout dt s
  | .plumbLock dt => Sys2Proof.Machine.execPlumbLock dt s
  | .holdoverEntry dt => Sys2Proof.Machine.execHoldoverEntry dt s
  | .holdoverRelock dt => Sys2Proof.Machine.execHoldoverRelock dt s
  | .holdoverDeadline dt => Sys2Proof.Machine.execHoldoverDeadline dt s
  | .managementTick dt r => Sys2Proof.Machine.execManagementTick dt r s
  | .governorRestEnd dt => Sys2Proof.Machine.execGovernorRestEnd dt s
  | .governorPause dt => Sys2Proof.Machine.execGovernorPause dt s
  | .restFramesEnd dt job => Sys2Proof.Machine.execRestFramesEnd dt job s
  | .splitChange dt job split => Sys2Proof.Machine.execSplitChange dt job split s
  | .pressurePause dt job => Sys2Proof.Machine.execPressurePause dt job s
  | .pressureResume dt job => Sys2Proof.Machine.execPressureResume dt job s
  | .parkLifetimeEnd dt entry => Sys2Proof.Machine.execParkLifetimeEnd dt entry s
  | .summaryLifetimeEnd dt entry => Sys2Proof.Machine.execSummaryLifetimeEnd dt entry s
  | .summaryComplete dt entry => Sys2Proof.Machine.execSummaryComplete dt entry s
  | .checkpointIntervalEnd dt job => Sys2Proof.Machine.execCheckpointIntervalEnd dt job s
  | .checkpointComplete dt job => Sys2Proof.Machine.execCheckpointComplete dt job s
  | .memoryZeroed dt die => Sys2Proof.Machine.execMemoryZeroed dt die s
  | .driveFailure dt => Sys2Proof.Machine.execDriveFailure dt s
  | .tlsHandshake dt port key => Sys2Proof.Machine.execTlsHandshake dt port key s
  | .managementRead dt conn head => Sys2Proof.Machine.execManagementRead dt conn head s
  | .managementWrite dt conn head data => Sys2Proof.Machine.execManagementWrite dt conn head data s
  | .partCreate dt c => Sys2Proof.Machine.execPartCreate dt c s
  | .partDestroy dt c => Sys2Proof.Machine.execPartDestroy dt c s
  | .partSeal dt c => Sys2Proof.Machine.execPartSeal dt c s
  | .partSetSlice dt c => Sys2Proof.Machine.execPartSetSlice dt c s
  | .imageLoad dt c => Sys2Proof.Machine.execImageLoad dt c s
  | .imageUnload dt c => Sys2Proof.Machine.execImageUnload dt c s
  | .jobStart dt c => Sys2Proof.Machine.execJobStart dt c s
  | .jobPause dt c => Sys2Proof.Machine.execJobPause dt c s
  | .jobResume dt c => Sys2Proof.Machine.execJobResume dt c s
  | .jobStop dt c => Sys2Proof.Machine.execJobStop dt c s
  | .stepReplay dt c => Sys2Proof.Machine.execStepReplay dt c s
  | .snapTake dt c => Sys2Proof.Machine.execSnapTake dt c s
  | .snapRestore dt c => Sys2Proof.Machine.execSnapRestore dt c s
  | .snapVerify dt c => Sys2Proof.Machine.execSnapVerify dt c s
  | .reqAdmit dt c => Sys2Proof.Machine.execReqAdmit dt c s
  | .reqCancel dt c => Sys2Proof.Machine.execReqCancel dt c s
  | .reqPause dt c => Sys2Proof.Machine.execReqPause dt c s
  | .reqResume dt c => Sys2Proof.Machine.execReqResume dt c s
  | .resultRead dt c => Sys2Proof.Machine.execResultRead dt c s
  | .resultRelease dt c => Sys2Proof.Machine.execResultRelease dt c s
  | .expertLoad dt c => Sys2Proof.Machine.execExpertLoad dt c s
  | .expertRetire dt c => Sys2Proof.Machine.execExpertRetire dt c s
  | .budgetSet dt c => Sys2Proof.Machine.execBudgetSet dt c s
  | .fabricDiscover dt c => Sys2Proof.Machine.execFabricDiscover dt c s
  | .routeInstall dt c => Sys2Proof.Machine.execRouteInstall dt c s
  | .linkRetrain dt c => Sys2Proof.Machine.execLinkRetrain dt c s
  | .linkRetrainDisable dt c => Sys2Proof.Machine.execLinkRetrainDisable dt c s
  | .linkRetrainEnable dt c => Sys2Proof.Machine.execLinkRetrainEnable dt c s
  | .linkRetrainLimit dt c => Sys2Proof.Machine.execLinkRetrainLimit dt c s
  | .healthRead dt c => Sys2Proof.Machine.execHealthRead dt c s
  | .riskSetThreshold dt c => Sys2Proof.Machine.execRiskSetThreshold dt c s
  | .attestQuote dt c => Sys2Proof.Machine.execAttestQuote dt c s
  | .installImageKey dt c => Sys2Proof.Machine.execInstallImageKey dt c s
  | .removeImageKey dt c => Sys2Proof.Machine.execRemoveImageKey dt c s
  | .setAccessEntry dt c => Sys2Proof.Machine.execSetAccessEntry dt c s
  | .exportKeyPair dt c => Sys2Proof.Machine.execExportKeyPair dt c s
  | .importKeyPair dt c => Sys2Proof.Machine.execImportKeyPair dt c s
  | .orderlyQuiesce dt c => Sys2Proof.Machine.execOrderlyQuiesce dt c s
  | .emergencyQuiesce dt c => Sys2Proof.Machine.execEmergencyQuiesce dt c s
  | .quiesceComplete dt => Sys2Proof.Machine.execQuiesceComplete dt s
  | .stepStart dt job landed => Sys2Proof.Machine.execStepStart dt job landed s
  | .stepEnd dt job out => Sys2Proof.Machine.execStepEnd dt job out s
  | .arrayWeightLoad dt tile a r => Sys2Proof.Machine.execArrayWeightLoad dt tile a r s
  | .arrayWeightLoadExpand dt tile a r => Sys2Proof.Machine.execArrayWeightLoadExpand dt tile a r s
  | .activationPlain dt tile a r => Sys2Proof.Machine.execActivationPlain dt tile a r s
  | .activationBlockScaled dt tile a r => Sys2Proof.Machine.execActivationBlockScaled dt tile a r s
  | .drainRequantise dt tile a r => Sys2Proof.Machine.execDrainRequantise dt tile a r s
  | .drainFp32Hook dt tile a r => Sys2Proof.Machine.execDrainFp32Hook dt tile a r s
  | .skimRow dt tile r => Sys2Proof.Machine.execSkimRow dt tile r s
  | .fadd dt tile r => Sys2Proof.Machine.execFadd dt tile r s
  | .fsub dt tile r => Sys2Proof.Machine.execFsub dt tile r s
  | .fmul dt tile r => Sys2Proof.Machine.execFmul dt tile r s
  | .ffma dt tile r => Sys2Proof.Machine.execFfma dt tile r s
  | .fmax dt tile r => Sys2Proof.Machine.execFmax dt tile r s
  | .fmin dt tile r => Sys2Proof.Machine.execFmin dt tile r s
  | .fcmp dt tile r => Sys2Proof.Machine.execFcmp dt tile r s
  | .fsel dt tile r => Sys2Proof.Machine.execFsel dt tile r s
  | .cvtfs dt tile r => Sys2Proof.Machine.execCvtfs dt tile r s
  | .cvtsf dt tile r => Sys2Proof.Machine.execCvtsf dt tile r s
  | .fneg dt tile r => Sys2Proof.Machine.execFneg dt tile r s
  | .fabs dt tile r => Sys2Proof.Machine.execFabs dt tile r s
  | .iadd dt tile r => Sys2Proof.Machine.execIadd dt tile r s
  | .isub dt tile r => Sys2Proof.Machine.execIsub dt tile r s
  | .imullo dt tile r => Sys2Proof.Machine.execImullo dt tile r s
  | .imulhu dt tile r => Sys2Proof.Machine.execImulhu dt tile r s
  | .iand dt tile r => Sys2Proof.Machine.execIand dt tile r s
  | .ior dt tile r => Sys2Proof.Machine.execIor dt tile r s
  | .ixor dt tile r => Sys2Proof.Machine.execIxor dt tile r s
  | .ishl dt tile r => Sys2Proof.Machine.execIshl dt tile r s
  | .ishrl dt tile r => Sys2Proof.Machine.execIshrl dt tile r s
  | .ishra dt tile r => Sys2Proof.Machine.execIshra dt tile r s
  | .irotl dt tile r => Sys2Proof.Machine.execIrotl dt tile r s
  | .imax dt tile r => Sys2Proof.Machine.execImax dt tile r s
  | .imin dt tile r => Sys2Proof.Machine.execImin dt tile r s
  | .icmp dt tile r => Sys2Proof.Machine.execIcmp dt tile r s
  | .isel dt tile r => Sys2Proof.Machine.execIsel dt tile r s
  | .bcast dt tile r => Sys2Proof.Machine.execBcast dt tile r s
  | .fdiv dt tile r => Sys2Proof.Machine.execFdiv dt tile r s
  | .fsqrt dt tile r => Sys2Proof.Machine.execFsqrt dt tile r s
  | .frsqrt dt tile r => Sys2Proof.Machine.execFrsqrt dt tile r s
  | .fexp dt tile r => Sys2Proof.Machine.execFexp dt tile r s
  | .flog dt tile r => Sys2Proof.Machine.execFlog dt tile r s
  | .ftanh dt tile r => Sys2Proof.Machine.execFtanh dt tile r s
  | .fsig dt tile r => Sys2Proof.Machine.execFsig dt tile r s
  | .ferf dt tile r => Sys2Proof.Machine.execFerf dt tile r s
  | .fexp2 dt tile r => Sys2Proof.Machine.execFexp2 dt tile r s
  | .flog2 dt tile r => Sys2Proof.Machine.execFlog2 dt tile r s
  | .rfsum dt tile r => Sys2Proof.Machine.execRfsum dt tile r s
  | .rfmax dt tile r => Sys2Proof.Machine.execRfmax dt tile r s
  | .rfmin dt tile r => Sys2Proof.Machine.execRfmin dt tile r s
  | .risum dt tile r => Sys2Proof.Machine.execRisum dt tile r s
  | .rargmax dt tile r => Sys2Proof.Machine.execRargmax dt tile r s
  | .finit dt tile r => Sys2Proof.Machine.execFinit dt tile r s
  | .fstat dt tile r => Sys2Proof.Machine.execFstat dt tile r s
  | .fhist dt tile r => Sys2Proof.Machine.execFhist dt tile r s
  | .fselect dt tile r => Sys2Proof.Machine.execFselect dt tile r s
  | .fgrad dt tile r => Sys2Proof.Machine.execFgrad dt tile r s
  | .fsave dt tile r => Sys2Proof.Machine.execFsave dt tile r s
  | .fmerge dt tile r => Sys2Proof.Machine.execFmerge dt tile r s
  | .fclose dt tile r => Sys2Proof.Machine.execFclose dt tile r s
  | .vectorRegisterLoad dt tile r => Sys2Proof.Machine.execVectorRegisterLoad dt tile r s
  | .vectorRegisterStore dt tile r => Sys2Proof.Machine.execVectorRegisterStore dt tile r s
  | .predicateLoad dt tile r => Sys2Proof.Machine.execPredicateLoad dt tile r s
  | .predicateStore dt tile r => Sys2Proof.Machine.execPredicateStore dt tile r s
  | .columnMaskLoad dt tile r => Sys2Proof.Machine.execColumnMaskLoad dt tile r s
  | .skimActivationEntryLoad dt tile r => Sys2Proof.Machine.execSkimActivationEntryLoad dt tile r s
  | .skimControlWordLoad dt tile r => Sys2Proof.Machine.execSkimControlWordLoad dt tile r s
  | .memoryBaseLoad dt tile r => Sys2Proof.Machine.execMemoryBaseLoad dt tile r s
  | .zeroFill dt tile r => Sys2Proof.Machine.execZeroFill dt tile r s
  | .turnRead dt tile r => Sys2Proof.Machine.execTurnRead dt tile r s
  | .hbmReadBeside dt tile r => Sys2Proof.Machine.execHbmReadBeside dt tile r s
  | .hbmReadOther dt tile r => Sys2Proof.Machine.execHbmReadOther dt tile r s
  | .hbmWrite dt tile r => Sys2Proof.Machine.execHbmWrite dt tile r s
  | .lpddrAccessBeside dt tile r => Sys2Proof.Machine.execLpddrAccessBeside dt tile r s
  | .lpddrAccessOther dt tile r => Sys2Proof.Machine.execLpddrAccessOther dt tile r s
  | .put dt tile r => Sys2Proof.Machine.execPut dt tile r s
  | .take dt tile r => Sys2Proof.Machine.execTake dt tile r s
  | .dieToDieSend dt tile r => Sys2Proof.Machine.execDieToDieSend dt tile r s
  | .dieToDieSendVia dt tile r => Sys2Proof.Machine.execDieToDieSendVia dt tile r s
  | .dieToDieReceive dt tile via r => Sys2Proof.Machine.execDieToDieReceive dt tile via r s
  | .lathSend dt tile r => Sys2Proof.Machine.execLathSend dt tile r s
  | .compactingSend dt tile r => Sys2Proof.Machine.execCompactingSend dt tile r s
  | .lathReceive dt tile r => Sys2Proof.Machine.execLathReceive dt tile r s
  | .scatterReceive dt tile r => Sys2Proof.Machine.execScatterReceive dt tile r s
  | .screedPart dt tile reach r => Sys2Proof.Machine.execScreedPart dt tile reach r s
  | .screedCensus dt tile reach r => Sys2Proof.Machine.execScreedCensus dt tile reach r s
  | .screedSelect dt tile reach r => Sys2Proof.Machine.execScreedSelect dt tile reach r s
  | .syncArriveSameDie dt tile r => Sys2Proof.Machine.execSyncArriveSameDie dt tile r s
  | .syncArriveOtherDie dt tile r => Sys2Proof.Machine.execSyncArriveOtherDie dt tile r s
  | .syncArriveOtherModule dt tile r => Sys2Proof.Machine.execSyncArriveOtherModule dt tile r s
  | .repeatRec dt tile index records => Sys2Proof.Machine.execRepeatRec dt tile index records s
  | .operationComplete dt id status => Sys2Proof.Machine.execOperationComplete dt id status s
  | .transferDelivery dt id status => Sys2Proof.Machine.execTransferDelivery dt id status s
  | .syncBeat dt job object => Sys2Proof.Machine.execSyncBeat dt job object s
  | .commitBeat dt job => Sys2Proof.Machine.execCommitBeat dt job s
  | .faultNotice dt record => Sys2Proof.Machine.execFaultNotice dt record s
  | .stepAbandon dt job => Sys2Proof.Machine.execStepAbandon dt job s
  | .faultListClose dt job => Sys2Proof.Machine.execFaultListClose dt job s
  | .screedPacketArrival dt die packet => Sys2Proof.Machine.execScreedPacketArrival dt die packet s
  | .bucketClose dt job bucket => Sys2Proof.Machine.execBucketClose dt job bucket s
  | .closeWordSend dt job bucket => Sys2Proof.Machine.execCloseWordSend dt job bucket s
  | .closeWordArrival dt job bucket word => Sys2Proof.Machine.execCloseWordArrival dt job bucket word s
  | .sendPoint dt link => Sys2Proof.Machine.execSendPoint dt link s
  | .timingFlitSend dt link => Sys2Proof.Machine.execTimingFlitSend dt link s
  | .scheduledFlit dt link f => Sys2Proof.Machine.execScheduledFlit dt link f s
  | .bestEffortFlit dt link f => Sys2Proof.Machine.execBestEffortFlit dt link f s
  | .noticeFlit dt link f => Sys2Proof.Machine.execNoticeFlit dt link f s
  | .helloFlit dt link f => Sys2Proof.Machine.execHelloFlit dt link f s
  | .lossFlit dt link f => Sys2Proof.Machine.execLossFlit dt link f s
  | .syncFlit dt link f => Sys2Proof.Machine.execSyncFlit dt link f s
  | .idleFlit dt link f => Sys2Proof.Machine.execIdleFlit dt link f s
  | .resendTimeout dt link seq => Sys2Proof.Machine.execResendTimeout dt link seq s
  | .linkSignalDetect dt link lanes => Sys2Proof.Machine.execLinkSignalDetect dt link lanes s
  | .trainingComplete dt link t => Sys2Proof.Machine.execTrainingComplete dt link t s
  | .trainingAttemptFail dt link lanes => Sys2Proof.Machine.execTrainingAttemptFail dt link lanes s
  | .trainingRungRetry dt link => Sys2Proof.Machine.execTrainingRungRetry dt link s
  | .trainingLadderRestart dt link => Sys2Proof.Machine.execTrainingLadderRestart dt link s
  | .linkSignalLoss dt link => Sys2Proof.Machine.execLinkSignalLoss dt link s
  | .plugPresent dt cage tenthWatts => Sys2Proof.Machine.execPlugPresent dt cage tenthWatts s
  | .dieLoss dt die cause => Sys2Proof.Machine.execDieLoss dt die cause s
  | .remapComplete dt job remote => Sys2Proof.Machine.execRemapComplete dt job remote s
  | .snapshotComplete dt job => Sys2Proof.Machine.execSnapshotComplete dt job s
  | .contextSwitchPhase dt job die => Sys2Proof.Machine.execContextSwitchPhase dt job die s
  | .contextSwitchStart dt job => Sys2Proof.Machine.execContextSwitchStart dt job s
  | .failingFlit dt f => Sys2Proof.Machine.execFailingFlit dt f s
  | .partnerRetrain dt link => Sys2Proof.Machine.execPartnerRetrain dt link s
  | .memoryTemperatureChange dt ctl hot => Sys2Proof.Machine.execMemoryTemperatureChange dt ctl hot s
  | .restoreVerified dt job remote => Sys2Proof.Machine.execRestoreVerified dt job remote s
  | .expertWeightsInPlace dt job set version => Sys2Proof.Machine.execExpertWeightsInPlace dt job set version s

end Sys2Proof.Machine
end

