-- ==== Sys2Proof/Machine/Step.lean ====
section
/-!
DEFINITION. Sys2Proof/Machine/Step.lean: one step of the block: the command in front of its queue takes effect.
-/
namespace Sys2Proof.Machine

/-- The state with the queue's first command taken away. -/
def State.popped (s : State) (rest : List Instr) : State := { s with pending := rest }

/-- One step. With nothing waiting the block idles (log 4). -/
def step (s : State) : Host.Outcome State Fault Refusal :=
  match s.pending with
  | [] => .next s
  | c :: rest => exec c (s.popped rest)

/-- The state with the command that a word spells in front of its queue; unchanged where the word spells none. -/
def State.withFetchWord (s : State) (nbits w : Nat) : State :=
  match decodeTableWord nbits w with
  | some c => { s with pending := c :: s.pending }
  | none => s

end Sys2Proof.Machine
end

