-- ==== Sys2Proof/Machine/Lights.lean ====
section
/-!
DEFINITION. Sys2Proof/Machine/Lights.lean: the outputs that the module shows without being asked: the status and identify
lights (R456), the cage lights (R368), and the contacts REMOVE_OK and FAULT_L of the blade connector (R466). They are
functions of the state.
-/
namespace Sys2Proof.Machine

/-- A light's colour. -/
inductive Colour where
  | red | blue | amber | green | white
  deriving DecidableEq, Repr

/-- What a light shows: off, steady, blinking at 1 Hz or at 4 Hz. -/
inductive Light where
  | off
  | steady (c : Colour)
  | blink (c : Colour)
  | fast (c : Colour)
  deriving DecidableEq, Repr

/-- A start is in progress, P0 to P8 (R456). -/
def Stage.isPhase : Stage → Bool
  | .phase _ => true
  | _ => false

/-- The status light: the first condition of R456 that holds, none where the table names none (log 75). -/
def State.statusLight (s : State) : Option Light :=
  if s.start.stage = .off then some .off
  else if s.start.stage = .bootStop then some (.fast .red)
  else if s.failed then some (.steady .red)
  else if s.quiesce = .done then some (.steady .blue)
  else if s.quiesce ≠ .none then some (.blink .blue)
  else if s.start.stage = .service then some (.steady .amber)
  else if s.start.stage.isPhase then some (.blink .amber)
  else if s.start.stage ≠ .running then none
  else if s.lostDies ≠ [] then some (.blink .green)
  else if s.plumb.state ≠ .locked then some (.fast .green)
  else some (.steady .green)

/-- The identify light (R455, R456): steady once a hold of 3 s has been taken as a request, blinking while identify is set. -/
def State.identifyLight (s : State) : Light :=
  if s.start.requestLight then .steady .white else if s.start.identify then .blink .white else .off

/-- A link's light in its cage: the first condition of R368 that holds, none where the table names none (log 75). -/
def Link.light (l : Link) : Option Light :=
  match l.state with
  | .disabled => some .off
  | .duplicate => some (.fast .amber)
  | .training | .hello => some (.blink .amber)
  | .down => if l.signal = 0 then some .off else if l.ladderFailed then some (.steady .amber) else none
  | .active =>
    if l.width < 3 ∨ l.degraded = true ∨ l.timeClass ≠ .common then some (.blink .green) else some (.steady .green)

/-- Contact S4 REMOVE_OK is low: the module is quiesced. -/
def State.removeOkLow (s : State) : Bool := s.quiesce == .done

/-- Contact S5 FAULT_L is low: FAILED, the service state or a boot-ROM stop. -/
def State.faultLow (s : State) : Bool := s.failed || s.start.stage == .service || s.start.stage == .bootStop

end Sys2Proof.Machine
end

