-- ==== Sys2Proof/WellFormed.lean ====
section
/-!
DEFINITION. Sys2Proof/WellFormed.lean: which operands a command can carry: module-wide numbers in the ranges of R20, R247,
R343 and R402, and fields that fit their places in a packet (R409) or a flit (R342).
-/
namespace Sys2Proof

/-- Below a bound. -/
def below (n bound : Nat) : Bool := decide (n < bound)

/-- A packet's fields fit their places (R409), and its window is one of the thirteen (R402). -/
def Call.wf (c : Call) : Bool :=
  below c.win 13 && below c.partition 256 && below c.flags 256 && below c.tag (2 ^ 32) && below c.length 65536
    && below c.reserved 65536 && c.params.length == 48

/-- A flit's fields fit their places (R342). -/
def Flit.wf (f : Flit) : Bool :=
  below f.type 16 && below f.seq 4096 && below f.ack 4096 && below f.nak 4096 && below f.job 4096 && below f.dest (2 ^ 17)
    && below f.word (2 ^ 23) && decide (f.payload.length ≤ 240)

/-- A tile has 256 scoreboard entries (R64, R68). -/
def IssueRec.wf (r : IssueRec) : Bool := below r.entryA 256 && below r.entryB 256 && below r.setEntry 256

/-- A module-wide tile (R20). -/
def tileOk (t : Nat) : Bool := below t 60
/-- A Lath link (R343). -/
def linkOk (l : Nat) : Bool := below l 64
/-- A job identifier (R247). -/
def jobOk (j : Nat) : Bool := below j 4096

/-- The well-formed commands. -/
def Instr.wf : Instr → Bool
  | .startPhaseComplete _ r => below r.dies 32
  | .timingFlit _ l f _ | .scheduledFlit _ l f | .bestEffortFlit _ l f | .noticeFlit _ l f | .helloFlit _ l f
  | .lossFlit _ l f | .syncFlit _ l f | .idleFlit _ l f => linkOk l && f.wf
  | .restFramesEnd _ j | .splitChange _ j _ | .pressurePause _ j | .pressureResume _ j | .checkpointIntervalEnd _ j
  | .checkpointComplete _ j | .stepStart _ j _ | .stepEnd _ j _ | .syncBeat _ j _ | .commitBeat _ j
  | .faultListClose _ j | .bucketClose _ j _ | .closeWordSend _ j _ | .closeWordArrival _ j _ _ | .remapComplete _ j _
  | .contextSwitchStart _ j | .restoreVerified _ j _ => jobOk j
  | .stepAbandon _ r => jobOk r.job
  | .snapshotComplete _ w => jobOk w.job
  | .contextSwitchPhase _ j d => jobOk j && below d 5
  | .expertWeightsInPlace _ j set version => jobOk j && below set 256 && below version 65536
  | .parkLifetimeEnd _ e | .summaryLifetimeEnd _ e | .summaryComplete _ e => below e 16384
  | .memoryZeroed _ d | .dieLoss _ d _ | .screedPacketArrival _ d _ => below d 5
  | .tlsHandshake _ p k => below p 2 && k.length == 64
  | .managementRead _ _ h | .managementWrite _ _ h _ => h.length == 16
  | .partCreate _ c | .partDestroy _ c | .partSeal _ c | .partSetSlice _ c | .imageLoad _ c | .imageUnload _ c
  | .jobStart _ c | .jobPause _ c | .jobResume _ c | .jobStop _ c | .stepReplay _ c | .snapTake _ c | .snapRestore _ c
  | .snapVerify _ c | .reqAdmit _ c | .reqCancel _ c | .reqPause _ c | .reqResume _ c | .resultRead _ c
  | .resultRelease _ c | .expertLoad _ c | .expertRetire _ c | .budgetSet _ c | .fabricDiscover _ c | .routeInstall _ c
  | .linkRetrain _ c | .linkRetrainDisable _ c | .linkRetrainEnable _ c | .linkRetrainLimit _ c | .healthRead _ c
  | .riskSetThreshold _ c | .attestQuote _ c | .installImageKey _ c | .removeImageKey _ c | .setAccessEntry _ c
  | .exportKeyPair _ c | .importKeyPair _ c | .orderlyQuiesce _ c | .emergencyQuiesce _ c => c.wf
  | .arrayWeightLoad _ t _ r | .arrayWeightLoadExpand _ t _ r | .activationPlain _ t _ r | .activationBlockScaled _ t _ r
  | .drainRequantise _ t _ r | .drainFp32Hook _ t _ r => tileOk t && r.wf
  | .skimRow _ t r | .fadd _ t r | .fsub _ t r | .fmul _ t r | .ffma _ t r | .fmax _ t r | .fmin _ t r | .fcmp _ t r
  | .fsel _ t r | .cvtfs _ t r | .cvtsf _ t r | .fneg _ t r | .fabs _ t r | .iadd _ t r | .isub _ t r | .imullo _ t r
  | .imulhu _ t r | .iand _ t r | .ior _ t r | .ixor _ t r | .ishl _ t r | .ishrl _ t r | .ishra _ t r | .irotl _ t r
  | .imax _ t r | .imin _ t r | .icmp _ t r | .isel _ t r | .bcast _ t r | .fdiv _ t r | .fsqrt _ t r | .frsqrt _ t r
  | .fexp _ t r | .flog _ t r | .ftanh _ t r | .fsig _ t r | .ferf _ t r | .fexp2 _ t r | .flog2 _ t r | .rfsum _ t r
  | .rfmax _ t r | .rfmin _ t r | .risum _ t r | .rargmax _ t r | .finit _ t r | .fstat _ t r | .fhist _ t r
  | .fselect _ t r | .fgrad _ t r | .fsave _ t r | .fmerge _ t r | .fclose _ t r | .vectorRegisterLoad _ t r
  | .vectorRegisterStore _ t r | .predicateLoad _ t r | .predicateStore _ t r | .columnMaskLoad _ t r
  | .skimActivationEntryLoad _ t r | .skimControlWordLoad _ t r | .memoryBaseLoad _ t r | .zeroFill _ t r
  | .turnRead _ t r | .hbmReadBeside _ t r | .hbmReadOther _ t r | .hbmWrite _ t r | .lpddrAccessBeside _ t r
  | .lpddrAccessOther _ t r | .put _ t r | .take _ t r | .dieToDieSend _ t r | .dieToDieSendVia _ t r
  | .dieToDieReceive _ t _ r | .lathSend _ t r | .compactingSend _ t r | .lathReceive _ t r | .scatterReceive _ t r
  | .screedPart _ t _ r | .screedCensus _ t _ r | .screedSelect _ t _ r | .syncArriveSameDie _ t r
  | .syncArriveOtherDie _ t r | .syncArriveOtherModule _ t r => tileOk t && r.wf
  | .repeatRec _ t _ _ => tileOk t
  | .failingFlit _ f => linkOk f.link
  | .sendPoint _ l | .timingFlitSend _ l | .linkSignalLoss _ l | .partnerRetrain _ l
  | .trainingRungRetry _ l | .trainingLadderRestart _ l => linkOk l
  | .resendTimeout _ l q => linkOk l && below q 4096
  | .linkSignalDetect _ l n | .trainingAttemptFail _ l n => linkOk l && below n 16
  | .trainingComplete _ l t => linkOk l && below t.delay 65536 && below t.frame (2 ^ 48) && below t.state 6 &&
    below t.hop 16 && below t.rung 4
  | .plugPresent _ g _ => below g 16
  | .memoryTemperatureChange _ c _ => below c 20 || (decide (32 ≤ c) && below c 52) || (decide (64 ≤ c) && below c 68)
  | .feedApplied _ | .feedRemoved _ | .feedVoltageChange _ _ | .feedOvervoltageOpen _ | .feedUndervoltageTurnOff _
  | .hotswapOvercurrent _ | .enableContactMate _ | .enableContactBreak _ | .ejectorLatchOpen _ | .serviceButtonPress _
  | .serviceButtonRelease _ | .serviceButtonHeld3s _ | .serviceButtonHeld10s _ | .coolantSensorChange _ _ _ _
  | .coolantEmergencyTimeout _ | .hubThermalTrip _ | .powerStageAlarm _ _ _ _ | .powerSample _ _ | .startPhaseTimeout _ _
  | .hubWatchdogTimeout _ | .startRetry _ | .frameWord _ _ _ | .referenceAbsentTimeout _ | .plumbLock _
  | .holdoverEntry _ | .holdoverRelock _ | .holdoverDeadline _ | .managementTick _ _ | .governorRestEnd _
  | .governorPause _ | .driveFailure _ | .quiesceComplete _ | .operationComplete _ _ _ | .transferDelivery _ _ _
  | .faultNotice _ _ => true

end Sys2Proof
end

