-- ==== Sys2Proof/Safety.lean ====
section
/-!
DEFINITION. Sys2Proof/Safety.lean: the terms in which claims about the module are made.
-/
namespace Sys2Proof.Machine

/-- A command completes: exec answers a next state, and `P` holds of it. -/
def Answers (i : Instr) (s : State) (P : State → Prop) : Prop := ∃ t, exec i s = .next t ∧ P t

/-- Alarm `i` of the eight regulator alarms of R465, in the order of its list. -/
def State.alarm (s : State) (i : Nat) : Bool := (activeAlarms s).getD i false

/-- The module is without power (R7, R380, R431): nothing runs, nothing volatile is left, and what the hub store, the fuses,
the catalogue and the drive hold is as it was, but that a start that was cut off is logged (R438). -/
def TurnedOff (u t : State) : Prop :=
  t.start.stage = .off ∧ t.power.path = false ∧ t.power.samples = [] ∧ t.power.resting = [] ∧
  t.tiles = [] ∧ t.tier1 = [] ∧ t.tier2 = [] ∧ t.hub = [] ∧ t.inflight = [] ∧ t.acts = [] ∧ t.jobs = [] ∧ t.images = [] ∧
  t.wins = [] ∧ t.cmds = [] ∧ t.regs = [] ∧ t.conns = [] ∧ t.requests = [] ∧ t.budgets = [] ∧ t.switches = [] ∧
  t.plumb = {} ∧ t.health = {} ∧ t.quiesce = .none ∧ t.failed = false ∧ t.lostDies = [] ∧
  t.parts = (u.parts.filter (fun e => e.2.state != .free)).map (fun e => (e.1, { e.2 with
    tiles := (e.2.whole.map (fun w => w.1)).getD e.2.tiles, windows := (e.2.whole.map (fun w => w.2)).getD e.2.windows,
    whole := none, prefixes := [] })) ∧
  t.store = { u.store with log := t.store.log } ∧ (u.start.stage.isPhase = false → t.store.log = u.store.log) ∧
  (u.start.stage.isPhase = true → (t.store.log.getLast?.map (fun e => e.outcome)) = some 5) ∧ t.catalogue = u.catalogue ∧ t.drive = { u.drive with present := false } ∧ t.number = u.number ∧
  t.serial = u.serial ∧ t.idHash = u.idHash ∧ t.variantB = u.variantB ∧ t.pending = u.pending

/-- Every place that the module itself held is marked lost, every other is as it was (R380). -/
def PlacesLost (u t : State) : Prop :=
  t.catalogue = u.catalogue.map (fun e => { e with places := e.places.map (fun h => if h.remote then h else { h with lost := true }) })

/-- An emergency quiesce has been asked for: it acts at the next frame boundary (R454). -/
def EmergencyAsked (v t : State) : Prop :=
  t = { v with quiesce := .emergency, acts := t.acts } ∧ (∀ a, a ∈ t.acts ↔ a = (nextFrame v.now, .emergency) ∨ a ∈ v.acts)

/-- A window as it opens (R408): the first packet expected has number 1, no reply has been written or taken. -/
def Win.fresh (w : Win) : Prop := w.isOpen = true ∧ w.area = [] ∧ w.expected = 1 ∧ w.head = 0 ∧ w.ack = 0

/-- A start has failed (R438, R439): a cold one leaves the service state with the operator window alone; a warm one is counted,
leaves nothing volatile, and waits for its retry. The start log says so. -/
def StartFailed (u t : State) : Prop :=
  (t.store.log.getLast?.map (fun e => e.outcome)) = some 2 ∧
  (u.start.cold = true → t.start.stage = .service ∧ t.wins.map (fun w => w.1) = [0] ∧ (t.win 0).fresh ∧
    t.store.failedWarm = u.store.failedWarm) ∧
  (u.start.cold = false → t.start.stage = .retry ∧ t.store.failedWarm = u.store.failedWarm + 1 ∧ t.wins = [] ∧ t.tiles = [] ∧
    t.jobs = [] ∧ t.conns = [])

/-- The three starts before were warm and failed, or the one before was, as the third failed warm start in all (R436, R438). -/
def ThreeFailed (st : Store) : Prop :=
  (∃ l a b c, st.log = l ++ [a, b, c] ∧ ∀ e, e ∈ [a, b, c] → e.cold = false ∧ e.outcome = 2) ∨
  (st.failedWarm = 3 ∧ ∃ l a, st.log = l ++ [a] ∧ a.cold = false ∧ a.outcome = 2)

/-- The alarms that are active are noted with a stamp, the others as they were (R381). -/
def AlarmsNoted (u t : State) : Prop :=
  t.health = { u.health with alarms := t.health.alarms } ∧ ∀ i, i < 8 → t.alarm i = true → SMap.find t.health.alarms i = some u.now

/-- A start has completed (R434, R438, R442): the windows of the operator and of every partition are open and new. -/
def StartCompleted (t : State) : Prop :=
  t.start.stage = .running ∧ t.store.failedWarm = 0 ∧ t.start.updating = false ∧ (t.win 0).fresh ∧
  (∀ w, w ∈ t.wins → w.2.fresh) ∧ (∀ e, e ∈ t.parts → (e.1 + 1) ∈ t.wins.map (fun w => w.1)) ∧
  (t.store.log.getLast?.map (fun e => e.outcome)) = some 1

/-- What a timing flit says (R29), received at a cycle. -/
def timeTold (f : Flit) (cycle : Nat) : PartnerTime :=
  { frame := leAt f.payload 0 6
    hop := bitsOf (leAt f.payload 6 1) 3 0
    state := plumbOf (bitsOf (leAt f.payload 6 1) 6 4)
    deadline := leAt f.payload 8 6
    at_ := cycle }

/-- No step runs, no job is to run, and the links carry nothing of a job (R40, R460). -/
def Stilled (t : State) : Prop :=
  (∀ k j, t.job k = some j → j.run = none ∧ j.mode ≠ .running) ∧ (∀ e, e ∈ t.links → e.2.sched = [] ∧ e.2.lossQ = []) ∧
  t.switches = []

/-- The data plane has been fenced at once, as `w` became `t` (R40, R454, R460): nothing runs on it; and with no withdrawal under way, every
job that ran is PAUSED, every other is as it stood, and every waiting command of a job is answered DEVICE_FAULT. -/
def PlaneFenced (w t : State) : Prop :=
  t.dataPlane = false ∧ Stilled t ∧ t.now = w.now ∧
  ((∀ e, e ∈ w.jobs → e.2.stop = none) →
    (∀ k j, w.job k = some j → ∃ x, t.job k = some x ∧ x.run = none ∧ x.nextAt = none ∧ x.u = j.u ∧ x.selector = j.selector ∧
      x.mode = if j.mode = .running then .paused else j.mode) ∧
    (∀ c k, c ∈ w.cmds → c.waiting = true → c.names (.job k) = true → (w.job k).isSome = true →
      ∃ r, r.status = 0x31 ∧ { c with reply := some r } ∈ t.cmds))

/-- What an emergency quiesce does at its frame boundary (R454): the data plane is fenced, and with no withdrawal under way every waiting
command but SERVICE_QUIESCE is answered DEVICE_FAULT. -/
def EmergencyFence (w t : State) : Prop :=
  PlaneFenced w t ∧ t.quiesce = .closing ∧ t.quiescing = true ∧
  ((∀ e, e ∈ w.jobs → e.2.stop = none) → ∀ c, c ∈ w.cmds → c.waiting = true → c.opcode ≠ 0x0B01 →
    ∃ r, r.status = 0x31 ∧ { c with reply := some r } ∈ t.cmds)

/-- A source is barred only while a holdover lasts, or after a return from one (R38): a module that is UNLOCKED, ACQUIRING or FENCED bars
none. -/
def SourcesBarred (s : State) : Prop :=
  s.plumb.state = .unlocked ∨ s.plumb.state = .acquiring ∨ s.plumb.state = .fenced → s.plumb.barred = []

/-- Jobs but one are as they were. -/
def OtherJobs (jid : Nat) (u t : State) : Prop := ∀ k, k ≠ jid → t.job k = u.job k

/-- Jobs but one, and but those of a pool, are as they were, apart from the step records that one of `n` bytes overwrites (R394). -/
def OtherJobsBut (jid n : Nat) (pool : Job → Bool) (u t : State) : Prop :=
  ∀ k, k ≠ jid → (u.job k).any pool = false → t.job k = (u.job k).map (fun x => { x with records := u.staying n x.records })

/-- The clock of `u` moved on to a cycle. -/
def State.upto (u : State) (t : Nat) : State := (u.settle t).advance t

/-- Requests but one are as they were. -/
def OtherRequests (e : Nat) (u t : State) : Prop := ∀ k, k ≠ e → t.req k = u.req k

/-! ### Host commands (R408 to R417) -/

/-- What a host command's row is: cycles, opcode and packet. -/
def hostRow : Instr → Option (Nat × Nat × Call)
  | .partCreate dt c => some (dt, 0x0101, c)
  | .partDestroy dt c => some (dt, 0x0102, c)
  | .partSeal dt c => some (dt, 0x0103, c)
  | .partSetSlice dt c => some (dt, 0x0104, c)
  | .imageLoad dt c => some (dt, 0x0201, c)
  | .imageUnload dt c => some (dt, 0x0202, c)
  | .jobStart dt c => some (dt, 0x0301, c)
  | .jobPause dt c => some (dt, 0x0302, c)
  | .jobResume dt c => some (dt, 0x0303, c)
  | .jobStop dt c => some (dt, 0x0304, c)
  | .stepReplay dt c => some (dt, 0x0305, c)
  | .snapTake dt c => some (dt, 0x0401, c)
  | .snapRestore dt c => some (dt, 0x0402, c)
  | .snapVerify dt c => some (dt, 0x0403, c)
  | .reqAdmit dt c => some (dt, 0x0501, c)
  | .reqCancel dt c => some (dt, 0x0502, c)
  | .reqPause dt c => some (dt, 0x0503, c)
  | .reqResume dt c => some (dt, 0x0504, c)
  | .resultRead dt c => some (dt, 0x0505, c)
  | .resultRelease dt c => some (dt, 0x0506, c)
  | .expertLoad dt c => some (dt, 0x0601, c)
  | .expertRetire dt c => some (dt, 0x0602, c)
  | .budgetSet dt c => some (dt, 0x0701, c)
  | .fabricDiscover dt c => some (dt, 0x0801, c)
  | .routeInstall dt c => some (dt, 0x0802, c)
  | .linkRetrain dt c => some (dt, 0x0803, c)
  | .linkRetrainDisable dt c => some (dt, 0x0803, c)
  | .linkRetrainEnable dt c => some (dt, 0x0803, c)
  | .linkRetrainLimit dt c => some (dt, 0x0803, c)
  | .healthRead dt c => some (dt, 0x0901, c)
  | .riskSetThreshold dt c => some (dt, 0x0902, c)
  | .attestQuote dt c => some (dt, 0x0A01, c)
  | .installImageKey dt c => some (dt, 0x0A02, c)
  | .removeImageKey dt c => some (dt, 0x0A02, c)
  | .setAccessEntry dt c => some (dt, 0x0A02, c)
  | .exportKeyPair dt c => some (dt, 0x0A02, c)
  | .importKeyPair dt c => some (dt, 0x0A02, c)
  | .orderlyQuiesce dt c => some (dt, 0x0B01, c)
  | .emergencyQuiesce dt c => some (dt, 0x0B01, c)
  | _ => none

/-- The tick boundary that a packet meets, with the packet in its slot. -/
def atSlot (s : State) (dt op : Nat) (c : Call) : State := writePacket (boundaryFor s dt c) op c

/-- The command that a packet becomes when it is collected and its work begins. -/
def cmdOf (u : State) (op : Nat) (c : Call) : Cmd :=
  { id := u.cmdSeq, opcode := op, call := c, block := blockOf u c, collected := u.now, keys := keysOf op c (blockOf u c), started := true }

/-- The state in which a packet takes effect where nothing else is at work: it is collected, and Expected has risen (R411). -/
def collectedIn (u : State) (op : Nat) (c : Call) : State :=
  { u.updWin c.win (fun w => { w with expected := (w.expected + 1) % 2 ^ 32 }) with
    cmdSeq := u.cmdSeq + 1, cmds := [cmdOf u op c] }

/-- A host command is collected at its boundary, nothing else being at work: no packet stands before it, its window is open and has room
for its replies, and no check before the sixth of R415 fails. It takes effect as `x` in the state `v`. -/
def Collected (i : Instr) (s v : State) (x : Cmd) : Prop :=
  ∃ dt op c u, hostRow i = some (dt, op, c) ∧ i.wf = true ∧ u = atSlot s dt op c ∧ (boundaryFor s dt c).takesNext c.win = true ∧
    u.cmds = [] ∧ u.mayCollect c.win = true ∧ firstCheck u op c (blockOf u c) = none ∧
    v = collectedIn u op c ∧ x = cmdOf u op c ∧ gate v x = none

/-- The same, and firmware meets no memory error in serving it (R169). -/
def Takes (i : Instr) (s v : State) (x : Cmd) : Prop := Collected i s v x ∧ x.call.mem = []

/-- The command is answered OK with result words, from the frame that follows its boundary (R49, R414). -/
def Replied (t v : State) (x : Cmd) (long : Bool) (words : List Nat) : Prop :=
  { x with reply := some { status := 0, stamp := nextFrame v.now, long := long, words := words } } ∈ t.cmds

/-- The command is answered with a status that is not OK, stamped with its boundary (R415). -/
def RefusedWith (t : State) (x : Cmd) (status : Nat) (words : List Nat) : Prop :=
  { x with reply := some { status := status, stamp := x.collected, words := words } } ∈ t.cmds

/-! ### Issues (R64 to R71) -/

/-- What an issue command is: cycles, tile, array, op class and record. -/
def issueOf : Instr → Option (Nat × Nat × Arr × Nat × IssueRec)
  | .arrayWeightLoad dt tile a r => some (dt, tile, a, 0x01, r)
  | .arrayWeightLoadExpand dt tile a r => some (dt, tile, a, 0x02, r)
  | .activationPlain dt tile a r => some (dt, tile, a, 0x03, r)
  | .activationBlockScaled dt tile a r => some (dt, tile, a, 0x04, r)
  | .drainRequantise dt tile a r => some (dt, tile, a, 0x05, r)
  | .drainFp32Hook dt tile a r => some (dt, tile, a, 0x06, r)
  | .skimRow dt tile r => some (dt, tile, .hawk, 0x10, r)
  | .fadd dt tile r => some (dt, tile, .hawk, 0x20, r)
  | .fsub dt tile r => some (dt, tile, .hawk, 0x20, r)
  | .fmul dt tile r => some (dt, tile, .hawk, 0x20, r)
  | .ffma dt tile r => some (dt, tile, .hawk, 0x20, r)
  | .fmax dt tile r => some (dt, tile, .hawk, 0x20, r)
  | .fmin dt tile r => some (dt, tile, .hawk, 0x20, r)
  | .fcmp dt tile r => some (dt, tile, .hawk, 0x20, r)
  | .fsel dt tile r => some (dt, tile, .hawk, 0x20, r)
  | .cvtfs dt tile r => some (dt, tile, .hawk, 0x20, r)
  | .cvtsf dt tile r => some (dt, tile, .hawk, 0x20, r)
  | .fneg dt tile r => some (dt, tile, .hawk, 0x20, r)
  | .fabs dt tile r => some (dt, tile, .hawk, 0x20, r)
  | .iadd dt tile r => some (dt, tile, .hawk, 0x20, r)
  | .isub dt tile r => some (dt, tile, .hawk, 0x20, r)
  | .imullo dt tile r => some (dt, tile, .hawk, 0x20, r)
  | .imulhu dt tile r => some (dt, tile, .hawk, 0x20, r)
  | .iand dt tile r => some (dt, tile, .hawk, 0x20, r)
  | .ior dt tile r => some (dt, tile, .hawk, 0x20, r)
  | .ixor dt tile r => some (dt, tile, .hawk, 0x20, r)
  | .ishl dt tile r => some (dt, tile, .hawk, 0x20, r)
  | .ishrl dt tile r => some (dt, tile, .hawk, 0x20, r)
  | .ishra dt tile r => some (dt, tile, .hawk, 0x20, r)
  | .irotl dt tile r => some (dt, tile, .hawk, 0x20, r)
  | .imax dt tile r => some (dt, tile, .hawk, 0x20, r)
  | .imin dt tile r => some (dt, tile, .hawk, 0x20, r)
  | .icmp dt tile r => some (dt, tile, .hawk, 0x20, r)
  | .isel dt tile r => some (dt, tile, .hawk, 0x20, r)
  | .bcast dt tile r => some (dt, tile, .hawk, 0x20, r)
  | .fdiv dt tile r => some (dt, tile, .hawk, 0x21, r)
  | .fsqrt dt tile r => some (dt, tile, .hawk, 0x21, r)
  | .frsqrt dt tile r => some (dt, tile, .hawk, 0x21, r)
  | .fexp dt tile r => some (dt, tile, .hawk, 0x22, r)
  | .flog dt tile r => some (dt, tile, .hawk, 0x22, r)
  | .ftanh dt tile r => some (dt, tile, .hawk, 0x22, r)
  | .fsig dt tile r => some (dt, tile, .hawk, 0x22, r)
  | .ferf dt tile r => some (dt, tile, .hawk, 0x22, r)
  | .fexp2 dt tile r => some (dt, tile, .hawk, 0x22, r)
  | .flog2 dt tile r => some (dt, tile, .hawk, 0x22, r)
  | .rfsum dt tile r => some (dt, tile, .hawk, 0x23, r)
  | .rfmax dt tile r => some (dt, tile, .hawk, 0x23, r)
  | .rfmin dt tile r => some (dt, tile, .hawk, 0x23, r)
  | .risum dt tile r => some (dt, tile, .hawk, 0x23, r)
  | .rargmax dt tile r => some (dt, tile, .hawk, 0x23, r)
  | .finit dt tile r => some (dt, tile, .hawk, 0x24, r)
  | .fstat dt tile r => some (dt, tile, .hawk, 0x24, r)
  | .fhist dt tile r => some (dt, tile, .hawk, 0x24, r)
  | .fselect dt tile r => some (dt, tile, .hawk, 0x24, r)
  | .fgrad dt tile r => some (dt, tile, .hawk, 0x24, r)
  | .fsave dt tile r => some (dt, tile, .hawk, 0x24, r)
  | .fmerge dt tile r => some (dt, tile, .hawk, 0x24, r)
  | .fclose dt tile r => some (dt, tile, .hawk, 0x24, r)
  | .vectorRegisterLoad dt tile r => some (dt, tile, .hawk, 0x30, r)
  | .vectorRegisterStore dt tile r => some (dt, tile, .hawk, 0x30, r)
  | .predicateLoad dt tile r => some (dt, tile, .hawk, 0x30, r)
  | .predicateStore dt tile r => some (dt, tile, .hawk, 0x30, r)
  | .columnMaskLoad dt tile r => some (dt, tile, .hawk, 0x30, r)
  | .skimActivationEntryLoad dt tile r => some (dt, tile, .hawk, 0x30, r)
  | .skimControlWordLoad dt tile r => some (dt, tile, .hawk, 0x30, r)
  | .memoryBaseLoad dt tile r => some (dt, tile, .hawk, 0x30, r)
  | .zeroFill dt tile r => some (dt, tile, .hawk, 0x30, r)
  | .turnRead dt tile r => some (dt, tile, .hawk, 0x31, r)
  | .hbmReadBeside dt tile r => some (dt, tile, .hawk, 0x40, r)
  | .hbmReadOther dt tile r => some (dt, tile, .hawk, 0x41, r)
  | .hbmWrite dt tile r => some (dt, tile, .hawk, 0x42, r)
  | .lpddrAccessBeside dt tile r => some (dt, tile, .hawk, 0x43, r)
  | .lpddrAccessOther dt tile r => some (dt, tile, .hawk, 0x44, r)
  | .put dt tile r => some (dt, tile, .hawk, 0x45, r)
  | .take dt tile r => some (dt, tile, .hawk, 0x45, r)
  | .dieToDieSend dt tile r => some (dt, tile, .hawk, 0x50, r)
  | .dieToDieSendVia dt tile r => some (dt, tile, .hawk, 0x51, r)
  | .dieToDieReceive dt tile via r =>
      some (dt, tile, .hawk, if via then 0x51 else 0x50, r)
  | .lathSend dt tile r => some (dt, tile, .hawk, 0x60, r)
  | .compactingSend dt tile r => some (dt, tile, .hawk, 0x60, r)
  | .lathReceive dt tile r => some (dt, tile, .hawk, 0x60, r)
  | .scatterReceive dt tile r => some (dt, tile, .hawk, 0x60, r)
  | .screedPart dt tile reach r => some (dt, tile, .hawk, reachClass reach, r)
  | .screedCensus dt tile reach r => some (dt, tile, .hawk, reachClass reach, r)
  | .screedSelect dt tile reach r => some (dt, tile, .hawk, reachClass reach, r)
  | .syncArriveSameDie dt tile r => some (dt, tile, .hawk, 0x80, r)
  | .syncArriveOtherDie dt tile r => some (dt, tile, .hawk, 0x81, r)
  | .syncArriveOtherModule dt tile r => some (dt, tile, .hawk, 0x82, r)
  | _ => none

/-- The listed latency of an op class (R71): none where the class lists a bound that its entry gives. -/
def listedLatency : Nat → Option Nat
  | 0x01 => some 48 | 0x02 => some 50 | 0x03 => some 24 | 0x04 => some 26 | 0x05 => some 12 | 0x06 => some 20
  | 0x10 => some 348
  | 0x20 => some 4 | 0x21 => some 16 | 0x22 => some 12 | 0x23 => some 30 | 0x24 => some 64
  | 0x30 => some 3 | 0x31 => some 5
  | 0x40 => some 320 | 0x41 => some 336 | 0x42 => some 320 | 0x43 => some 480 | 0x44 => some 496 | 0x45 => some 320
  | 0x80 => some 16 | 0x81 => some 48
  | _ => none

/-- An issue command issues its record in the state `u` (R63 to R67, R119, R154): its record is assigned and in scratchpad,
it is the one that the program of a tile whose job's step is running holds for this cycle, on an array that is not fenced, naming a transfer that its job's tables hold. -/
def Issues (i : Instr) (s u : State) (tile : Nat) (a : Arr) (cls : Nat) (r : IssueRec) : Prop :=
  ∃ dt, issueOf i = some (dt, tile, a, cls, r) ∧ u = s.after dt ∧
    descOk tile cls r.desc = true ∧ recOk r = true ∧ rangesOk cls r.desc = true ∧ u.issuing tile a cls r = true ∧
    (cls ≤ 0x06 → u.arrayFenced tile a = false) ∧
    (cls = 0x50 ∨ cls = 0x51 ∨ cls = 0x60 → (u.transferKind tile (cls == 0x60) r.desc).isSome = true)

/-- The issue of `u` that gave `t` has a micro-operation in flight, due at a cycle. -/
def InFlight (t u : State) (tile due : Nat) (act : Act) : Prop :=
  ∃ o, o ∈ t.inflight ∧ o.id = u.issues ∧ o.tile = tile ∧ o.issued = u.now ∧ o.due = due ∧ o.act = act

/-- An issue of `u` has queued flits on a link, at send points in order from a cycle on (R343, R344, R362). -/
def Queued (t u : State) (link part ready : Nat) (fs : List Flit) : Prop :=
  ∃ more, (t.link link).sched = (u.link link).sched ++ more ∧ more.map (fun q => q.flit) = fs ∧
    (more.map (fun q => q.point)).Pairwise (fun a b => a < b) ∧
    ∀ q, q ∈ more → q.part = part ∧ q.id = u.issues ∧ ready ≤ q.point ∧ trafficPoint (u.link link).width q.point = true

/-- An issue's access is not performed (R160, R323): it is counted as a window miss, or as a miss of the grant, and of the access nothing is
in flight but `act`, which is not live. -/
def NotPerformed (t u : State) (tile due : Nat) (r : IssueRec) (window : Bool) (act : Act) : Prop :=
  (t.tile tile).misses = (u.tile tile).misses + b2n window ∧ (t.tile tile).regMisses = (u.tile tile).regMisses + b2n (!window) ∧
  InFlight t u tile due act ∧
  ∀ o, o ∈ t.inflight → o ∈ u.inflight ∨
    o.act ∈ [act, .complete (recEntry r), .release (recReleases r), .promise r.setEntry]

/-- The access of an issue is performed (R160, R163, R164, R323): the job's window on the tile's die holds it from the die address `a`
on, and its slots, from its arrival on, are usable and granted to a partition that is not pooled. -/
def Performed (u : State) (tile cls off len tier : Nat) (j : Job) (a : Nat) : Prop :=
  (∃ jid, (u.tile tile).job = some jid ∧ u.job jid = some j) ∧ tier < 2 ∧ (u.part j.part).pooled = false ∧
  (u.part j.part).windowAddr (dieOf tile) (tier == 1) off len = some a ∧
  slotsGranted ((u.part j.part).grant (tier == 1)) (tier == 1) (u.now + memArrival cls) (slotCount (tier == 1) len) = true

/-- No link's partner is a duplicate (R354). -/
def NoDuplicates (s : State) : Prop := ∀ e h, e ∈ s.links → e.2.hello = some h → duplicateHello s h = false

/-- Every memory of the module stands in its canonical form. -/
def Canonical (s : State) : Prop :=
  Mem.wf s.hub = true ∧ (∀ e, e ∈ s.tiles → Mem.wf e.2.scratch = true) ∧ (∀ e, e ∈ s.tier1 → Mem.wf e.2 = true) ∧
  (∀ e, e ∈ s.tier2 → Mem.wf e.2 = true) ∧ (∀ e, e ∈ s.wins → Mem.wf e.2.area = true)

end Sys2Proof.Machine
end

