-- ==== Sys2Proof/Certificates/Slice0/Obligations.lean ====
section
/-!
DEFINITION. Sys2Proof/Certificates/Slice0/Obligations.lean: the statements for the provers. In most of them `u` is the state
that `dt` cycles after the command before leave (log 4), and a frame is an equation: the state after is `u` but for the fields
that the right-hand side takes from the state after.
-/
open Sys2Proof Sys2Proof.Machine

/-! ### The queue -/

/-- The command in front of the queue takes effect on the state with the queue's rest; with nothing waiting the block
idles (log 4). -/
def Obligations.StepRunsFront : Prop :=
  (∀ (s : State) (c : Instr) (rest : List Instr), s.pending = c :: rest → step s = exec c { s with pending := rest }) ∧
  (∀ s : State, s.pending = [] → step s = .next s)

/-! ### Feed, coolant and controls (R7, R453 to R467) -/

/-- What the sensors report stands in the state, and sets the alarms of R457, R464 and R465; an alarm that is active is noted for the health
monitor (R381). -/
def Obligations.FeedAndSensorReadings : Prop :=
  ∀ (s u : State) (dt : Nat), u = s.after dt →
    (∀ mv, mv ≤ 65000 → Answers (.feedVoltageChange dt mv) s fun t =>
      t = { u with health := t.health, power := { u.power with
        millivolts := mv, latched := u.power.latched && decide (10000 ≤ mv),
        overSince := if 60000 < mv then some (u.power.overSince.getD u.now) else none,
        underSince := if mv < 44000 then some (u.power.underSince.getD u.now) else none } } ∧
      (u.start.stage ≠ .off → AlarmsNoted u t) ∧
      t.alarm 0 = decide (44000 ≤ mv ∧ mv < 46000) ∧ t.alarm 1 = decide (58000 < mv ∧ mv ≤ 60000)) ∧
    (∀ inlet outlet flow, Answers (.coolantSensorChange dt inlet outlet flow) s fun t =>
      t = { u with power := t.power, health := t.health } ∧ (u.start.stage ≠ .off → AlarmsNoted u t) ∧
      t.power = { u.power with inlet := inlet, outlet := outlet, flow := flow, hotSince := t.power.hotSince } ∧
      t.power.hotSince = (if 500 < inlet ∨ flow < 3000 then some (u.power.hotSince.getD u.now) else none) ∧
      t.alarm 2 = decide (450 < inlet) ∧ t.alarm 3 = decide (600 < outlet) ∧ t.alarm 4 = decide (flow < 4500)) ∧
    (∀ (rail : Bool) (n : Nat) (active : Bool), Answers (.powerStageAlarm dt rail n active) s fun t =>
      t = { u with power := { u.power with stages := t.power.stages, rails := t.power.rails }, health := t.health } ∧
      (u.start.stage ≠ .off → AlarmsNoted u t) ∧
      (∀ m, m ∈ t.power.stages ↔ if rail = false ∧ m = n then active = true else m ∈ u.power.stages) ∧
      (∀ m, m ∈ t.power.rails ↔ if rail = true ∧ m = n then active = true else m ∈ u.power.rails) ∧
      (t.alarm 6 = true ↔ t.power.stages ≠ []) ∧ (t.alarm 7 = true ↔ t.power.rails ≠ [])) ∧
    (∀ (c : Nat) (hot : Bool), Answers (.memoryTemperatureChange dt c hot) s fun t =>
      t = { u with ctls := t.ctls } ∧ t.ctl c = { u.ctl c with hot := hot } ∧ ∀ d, d ≠ c → t.ctl d = u.ctl d)

/-- The feed applied to a module that is off begins a start at P0 (R7, R436, R441); after a turn-off it has first to fall
below 10 V (R457). The contact ENABLE alone closes nothing (R458). -/
def Obligations.FeedApplied : Prop :=
  ∀ (s u : State) (dt : Nat), u = s.after dt →
    (u.start.stage = .off → u.power.latched = false → Answers (.feedApplied dt) s fun t =>
      t = { u with now := 0, start := t.start,
                   power := { u.power with millivolts := t.power.millivolts, overSince := none, underSince := none,
                                           hotSince := u.power.hotSince.map (fun _ => 0) },
                   links := t.links, store := { u.store with starts := u.store.starts + 1 }, catalogue := t.catalogue } ∧
      t.start.stage = .phase 0 ∧ (t.start.cold = true ↔ ThreeFailed u.store ∨ u.store.training = none ∨ u.store.mapped = false) ∧
      t.start.heldFromFeed = u.start.pressedAt.isSome ∧ PlacesLost u t) ∧
    (u.start.stage = .off → u.power.latched = true → exec (.feedApplied dt) s = .next u) ∧
    (∀ mv, mv < 10000 → Answers (.feedVoltageChange dt mv) s fun t => t.power.latched = false) ∧
    exec (.enableContactMate dt) s = .next { u with power := { u.power with enable := true } }

/-- Each way in which the module loses its power (R7, R380, R457, R462, R465, R467), above 60 V after 1 ms, above 65 V at once and below
44 V after more than 0.5 ms: nothing volatile is left, the catalogue and the drive's
checkpoints are, and at a start the catalogue marks lost every place that the module held. -/
def Obligations.TurnOffs : Prop :=
  ∀ (s u : State) (dt : Nat), u = s.after dt →
    (Answers (.feedRemoved dt) s fun t => TurnedOff u t ∧ t.power.millivolts = 0 ∧ t.power.latched = false) ∧
    (∀ mv v, 65000 < mv → u.start.stage ≠ .off → v = { u with power := { u.power with millivolts := mv } } →
      Answers (.feedVoltageChange dt mv) s fun t => TurnedOff v t ∧ t.power.latched = true) ∧
    (∀ x v, u.start.stage ≠ .off → u.power.millivolts ≤ 65000 → u.power.overSince = some x →
      v = u.upto (max u.now (x + 2500000)) → v.start.stage ≠ .off → Answers (.feedOvervoltageOpen dt) s fun t =>
      TurnedOff v t ∧ t.power.latched = decide (10000 ≤ v.power.millivolts)) ∧
    (∀ x v, u.start.stage ≠ .off → u.power.underSince = some x →
      v = u.upto (max u.now (x + 1250001)) → v.start.stage ≠ .off → Answers (.feedUndervoltageTurnOff dt) s fun t =>
      TurnedOff v t ∧ t.power.latched = decide (10000 ≤ v.power.millivolts)) ∧
    (u.start.stage ≠ .off → 65000 < u.power.millivolts → Answers (.feedOvervoltageOpen dt) s fun t =>
      TurnedOff u t ∧ t.power.latched = true) ∧
    (u.start.stage ≠ .off → Answers (.hotswapOvercurrent dt) s fun t =>
      TurnedOff u t ∧ t.power.latched = decide (10000 ≤ u.power.millivolts)) ∧
    (u.start.stage ≠ .off → Answers (.hubThermalTrip dt) s fun t =>
      TurnedOff u t ∧ t.power.latched = decide (10000 ≤ u.power.millivolts)) ∧
    (u.start.stage ≠ .off → Answers (.enableContactBreak dt) s fun t => TurnedOff u t ∧ t.power.enable = false) ∧
    (u.start.stage = .off → u.power.latched = false → Answers (.feedApplied dt) s fun t => PlacesLost u t ∧ t.drive = u.drive) ∧
    (∀ v, u.start.stage = .retry → v = (u.settle (u.start.phaseStart + second)).advance (u.start.phaseStart + second) →
      Answers (.startRetry dt) s fun t => PlacesLost v t ∧ t.drive = v.drive)

/-- The operator's controls and the coolant limit (R454, R455, R464): what each asks of the module. A press before the feed was applied has
a stamp before cycle 0; at a boot-ROM stop nothing runs to carry a request out (log 131). The emergency quiesce that is asked for fences the
data plane at the next frame boundary. -/
def Obligations.OperatorControls : Prop :=
  (∀ w t n, t = applyAct w n .emergency → EmergencyFence w t) ∧
  ∀ (s u : State) (dt : Nat), u = s.after dt →
    (u.start.stage ≠ .off → u.start.stage ≠ .bootStop → u.quiesce = .none ∨ u.quiesce = .orderly →
      Answers (.ejectorLatchOpen dt) s fun t => EmergencyAsked { u with power := { u.power with latchOpen := true } } t) ∧
    (∀ t0 v, u.power.hotSince = some t0 → u.now ≤ t0 + 10 * second →
      u.start.stage = .running ∨ u.start.stage = .service ∨ (∃ n, 2 ≤ n ∧ u.start.stage = .phase n) →
      v = (u.settle (t0 + 10 * second)).advance (t0 + 10 * second) → v.quiesce = .none ∨ v.quiesce = .orderly →
      Answers (.coolantEmergencyTimeout dt) s fun t => EmergencyAsked v t) ∧
    (u.quiesce = .none → exec (.serviceButtonPress dt) s = .next { u with start := { u.start with pressedAt := some (u.now : Int) } }) ∧
    (u.quiesce ≠ .none → exec (.serviceButtonPress dt) s = .next u) ∧
    (∀ p, u.start.pressedAt = some p → u.now < p + second → u.start.stage ≠ .off →
      exec (.serviceButtonRelease dt) s = .next { u with start := { u.start with
        pressedAt := none, heldFromFeed := false, identify := !u.start.identify } }) ∧
    (∀ p v, u.start.pressedAt = some p → u.start.heldFromFeed = false → u.start.stage = .running ∨ u.start.stage = .service →
      u.quiesce = .none → u.now ≤ p + 3 * second → v = u.upto (p + 3 * second).toNat → v.quiesce = .none →
      Answers (.serviceButtonHeld3s dt) s fun t => t.quiesce = .orderly ∧ t.start = { v.start with requestLight := true } ∧
        t.identifyLight = .steady .white ∧ (nextFrame v.now, .quiescing) ∈ t.acts) ∧
    (∀ v t0, t0 = u.start.p0End + 3 * second → u.start.pressedAt.isSome = true → u.start.heldFromFeed = true →
      u.start.stage ≠ .phase 0 → u.now ≤ t0 → v = (u.settle t0).advance t0 → v.start.stage.isPhase = true →
      exec (.serviceButtonHeld3s dt) s = .next { v with start := { v.start with cold := true } }) ∧
    (∀ v t0, t0 = u.start.p0End + 10 * second → u.start.pressedAt.isSome = true → u.start.heldFromFeed = true →
      u.start.stage = .running ∨ u.start.stage = .service ∨ (∃ n, 1 ≤ n ∧ u.start.stage = .phase n) → u.now ≤ t0 →
      v = (u.settle t0).advance t0 →
      exec (.serviceButtonHeld10s dt) s = .next { v with store := { v.store with access := [] } })

/-- A power sample (R459 to R461): it is kept, and the governor trips at the next frame boundary exactly where the sample is above
3.4 kW or is the eleventh in a row above 3.0 kW. The trip fences the data plane there, and is recorded with the mean of the power. -/
def Obligations.PowerSamples : Prop :=
  (∀ w t n, t = applyAct w n .trip → PlaneFenced w t ∧ t.power.tripped = true ∧ t.power.samples = w.power.samples ∧
    t.log.getLast? = some (.governor n 3 0 (powerMean w.power))) ∧
  ∀ (s u : State) (dt mw : Nat), u = s.after dt → u.start.stage ≠ .off → u.start.stage ≠ .bootStop → u.power.tripped = false →
    (∀ a, a ∈ u.acts → a.2 ≠ .trip) →
    Answers (.powerSample dt mw) s fun t =>
      t = { u with power := { u.power with samples := mw :: u.power.samples.take 999, above := t.power.above }, acts := t.acts } ∧
      t.power.above = (if 3000000 < mw then u.power.above + 1 else 0) ∧
      (∀ a, a ∈ t.acts ↔ a ∈ u.acts ∨
        (a = (nextFrame u.now, .trip) ∧ (3400000 < mw ∨ (3000000 < mw ∧ 10 ≤ u.power.above))))

/-- The start sequence (R131, R427, R432, R434, R438, R458): P0 ends once the main path is closed, which takes the contact ENABLE and the
bulk capacitance at 90 % of the feed; a failure of the hub's packages, of
P0 or of firmware fails the start; P5 writes the repair records of the arrays and Skim units in service; a die that reaches the
bound of P3 or P5 is lost, and a second one fails the start; P8 opens the windows; a failed warm start begins again after 1 s,
cold from the third failure on. The codes of a record that replaces nothing are the model's reading (log 87), and so is the one
bound for all dies (log 40). -/
def Obligations.StartSequence : Prop :=
  ∀ (s u : State) (dt : Nat), u = s.after dt →
    (∀ r, u.start.stage = .phase 0 → u.now ≤ u.start.phaseStart + phaseBound 0 →
      (u.power.path = true ∨ (u.power.enable = true ∧ 90 ≤ r.bulk) →
        exec (.startPhaseComplete dt r) s = .next { u with
          power := { u.power with path := true }
          start := { u.start with stage := .phase 1, ends := u.start.ends ++ [(0, u.now)], p0End := u.now } }) ∧
      (u.power.path = false → u.power.enable = false ∨ r.bulk < 90 → exec (.startPhaseComplete dt r) s = .next u)) ∧
    (∀ r n, n = 2 ∨ n = 4 → u.start.stage = .phase n → u.now ≤ u.start.phaseStart + phaseBound n → r.hubOk = false →
      Answers (.startPhaseComplete dt r) s (StartFailed u)) ∧
    (∀ r, u.start.stage = .phase 8 → u.now ≤ u.start.phaseStart + phaseBound 8 →
      (∀ e, e ∈ u.links → e.2.since + second ≤ u.now) →
      Answers (.startPhaseComplete dt r) s fun t => StartCompleted t ∧ t.routes = [] ∧ t.store.routes = []) ∧
    (∀ n die v, n = 0 ∨ n = 2 → u.start.stage = .phase n → u.now ≤ u.start.phaseStart + phaseBound n →
      v = (u.settle (u.start.phaseStart + phaseBound n)).advance (u.start.phaseStart + phaseBound n) →
      Answers (.startPhaseTimeout dt die) s (StartFailed v)) ∧
    (∀ n die v, n = 3 ∨ n = 5 → u.start.stage = .phase n → u.now ≤ u.start.phaseStart + phaseBound n →
      v = (u.settle (u.start.phaseStart + phaseBound n)).advance (u.start.phaseStart + phaseBound n) →
      (v.lostDies = [] → exec (.startPhaseTimeout dt die) s = .next { v with lostDies := [die] }) ∧
      (∀ d, d ≠ die → v.lostDies = [d] → Answers (.startPhaseTimeout dt die) s fun t =>
        StartFailed { v with lostDies := [d, die] } t)) ∧
    (∀ r, u.start.stage = .phase 5 → u.now ≤ u.start.phaseStart + phaseBound 5 → Answers (.startPhaseComplete dt r) s fun t =>
      t.store.mapped = true ∧
      (∀ a, a < 120 → u.dieUp (a / 24) = true → SMap.find t.store.repair a = some (repairRecord (foundIn r.repair a) u.now)) ∧
      (∀ k, k < 60 → u.dieUp (k / 12) = true → SMap.find t.store.skim k = some (skimRecord (skimIn r.skim k) u.now))) ∧
    (∀ n, 2 ≤ n → u.start.stage = .phase n → Answers (.hubWatchdogTimeout dt) s (StartFailed u)) ∧
    (∀ v, u.start.stage = .retry → v = (u.settle (u.start.phaseStart + second)).advance (u.start.phaseStart + second) →
      Answers (.startRetry dt) s fun t =>
        t.start.stage = .phase 0 ∧ t.store = { v.store with starts := v.store.starts + 1 } ∧
        (t.start.cold = true ↔ ThreeFailed v.store ∨ v.store.training = none ∨ v.store.mapped = false) ∧
        t.power = v.power ∧ PlacesLost v t)

/-! ### Plumb time (R26 to R47) -/

/-- Frame words (R27, R31, R32, R35, R36): a word that fails its check changes nothing; a good one begins or continues an
acquisition from the connector; once LOCKED the source is kept, and a frame number other than the one expected loses it. That a module that
is UNLOCKED, ACQUIRING or FENCED bars no source (R38) is an invariant of the model (FusesStay). -/
def Obligations.FrameWords : Prop :=
  ∀ (s u : State) (dt : Nat) (w : BitVec 64) (err : Int), u = s.after dt →
    (frameWordOk w = false → exec (.frameWord dt w err) s = .next u) ∧
    (frameWordOk w = true → u.timed = true → SourcesBarred u → Answers (.frameWord dt w err) s fun t =>
      t = { u with plumb := t.plumb } ∧ t.plumb.connector.frame = fld w 55 8 ∧
      t.plumb.connector.lastAt = some (frameOf (u.now + 32768)) ∧
      (u.plumb.state = .unlocked ∨ u.plumb.state = .fenced → t.plumb.state = .acquiring ∧ t.plumb.cand = 64 ∧
        t.plumb.src.good = if err.natAbs ≤ 8 then 1 else 0) ∧
      (u.plumb.state = .acquiring → u.plumb.cand = 64 → u.plumb.src.lastAt = some (frameOf (u.now + 32768) - 1) →
        fld w 55 8 = u.plumb.src.frame + 1 → t.plumb.state = .acquiring ∧ t.plumb.cand = 64 ∧
        t.plumb.src.good = if err.natAbs ≤ 8 then u.plumb.src.good + 1 else 0) ∧
      (u.plumb.state = .locked → t.plumb.state = .locked ∧ t.plumb.source = u.plumb.source ∧
        (u.plumb.source = 64 → fld w 55 8 ≠ frameOf (u.now + 32768) → t.plumb.losing = true)))

/-- Timing flits (R29, R39): the partner's frame number, hop count and state are kept; a module whose source is in HOLDOVER is
itself in HOLDOVER, under the deadline that its source reports. That only an ACTIVE link takes them is the model's reading (log
80). -/
def Obligations.TimingFlits : Prop :=
  ∀ (s u : State) (dt link : Nat) (f : Flit) (err : Int) (own : Nat), u = s.after dt →
    own = frameOf (u.now - (u.link link).delay + 32768) → f.type = 4 → (u.link link).state = .active →
    Answers (.timingFlit dt link f err) s fun t =>
      (t.link link).partner = some (timeTold f u.now) ∧
      t = { u with links := t.links, plumb := t.plumb, log := t.log } ∧
      (u.timed = true → u.plumb.state = .locked → u.plumb.source = link → u.plumb.losing = false → err.natAbs ≤ 16 →
        u.plumb.src.lastAt = some (own - 1) → (timeTold f u.now).frame = own →
        ((timeTold f u.now).state = .holdover → (timeTold f u.now).hop ≠ 15 →
          t.plumb.state = .holdover ∧ t.plumb.deadline = (timeTold f u.now).deadline) ∧
        ((timeTold f u.now).state = .locked → (timeTold f u.now).hop ≠ 15 →
          t.plumb.state = .locked ∧ t.plumb.losing = false ∧ t.plumb.hop = min 15 ((timeTold f u.now).hop + 1)) ∧
        ((timeTold f u.now).hop = 15 → t.plumb.losing = true))

/-- Once LOCKED (R32), a module keeps its source: whatever the command, a module that is LOCKED after it follows the source it followed
before it. -/
def Obligations.SourceKept : Prop :=
  ∀ s t : State, s.plumb.state = .locked → step s = .next t → t.plumb.state = .locked → t.plumb.source = s.plumb.source

/-- Lock, loss and relock (R35 to R38, R40, R41): sixteen good frames lock, and the frame counter takes the source's number; a
reference that is absent loses the source; a lost or silent source begins HOLDOVER at the next frame boundary; in HOLDOVER a
source that agrees within ±2 cy ends it, and the deadline begins FENCED. What the new count does to times that run is the
model's reading (log 32). -/
def Obligations.PlumbStates : Prop :=
  ∀ (s u : State) (dt : Nat), u = s.after dt →
    (u.plumb.state = .locked → u.plumb.losing = true ∨ silent u = true → Answers (.holdoverEntry dt) s fun t =>
      t.plumb.state = .holdover ∧ t.plumb.source = 127 ∧ t.plumb.deadline = frameOf t.now + 64) ∧
    (u.plumb.state = .holdover → u.now ≤ 65536 * u.plumb.deadline → Answers (.holdoverDeadline dt) s fun t =>
      t.plumb.state = .fenced ∧ t.plumb.hop = 15 ∧ t.plumb.barred = [] ∧ .fence (65536 * u.plumb.deadline) ∈ t.log) ∧
    (u.plumb.state = .acquiring → 16 ≤ u.plumb.src.good → Answers (.plumbLock dt) s fun t =>
      t.plumb.state = .locked ∧ t.plumb.source = u.plumb.cand ∧ t.plumb.wasFenced = false ∧
      (u.plumb.cand = 64 → t.plumb.hop = 1) ∧
      (u.plumb.src.lastAt = some (frameOf u.now) → frameOf t.now = u.plumb.src.frame ∧ cycleOf t.now = cycleOf u.now) ∧
      (u.plumb.wasFenced = true → t.plumb.relocks = u.plumb.relocks ++ [(frameOf u.now, frameOf t.now)] ∧
        .relock t.now (frameOf u.now) (frameOf t.now) ∈ t.log) ∧
      t.tiles = u.tiles ∧ t.parts = u.parts ∧ t.wins = u.wins ∧ t.cmds = u.cmds) ∧
    (u.plumb.state = .acquiring → u.plumb.src.good < 16 → exec (.plumbLock dt) s = .next u) ∧
    (u.plumb.state = .locked → exec (.referenceAbsentTimeout dt) s = .next { u with plumb := { u.plumb with losing := true } }) ∧
    (u.plumb.state = .holdover → u.plumb.cand ≠ 127 → selectSource u = some u.plumb.cand → u.plumb.src.err.natAbs ≤ 16 →
      u.now < 65536 * u.plumb.deadline → Answers (.holdoverRelock dt) s fun t =>
        t = { u with plumb := t.plumb, links := t.links, log := t.log } ∧ t.plumb.state = .locked ∧
        t.plumb.source = u.plumb.cand ∧ t.plumb.deadline = 0)

/-! ### The fence of the Plumb plane, the management tick, the governor (R37, R40, R413, R460, R461) -/

/-- Holdover (R37, R40): a lost or silent source begins it at the next frame boundary, 64 frames before its deadline, and the data plane
runs on as it did; at the deadline the module is FENCED, nothing runs on its data plane, every job is left PAUSED or as it stood, and,
where no context switch and no change of slice is under way, tiers 1 and 2 are as they were. -/
def Obligations.HoldoverFence : Prop :=
  ∀ (s u v : State) (dt f g : Nat), u = s.after dt →
    (u.plumb.state = .locked → u.plumb.losing = true ∨ silent u = true → f = nextFrame u.now → v = (u.settle f).reach f →
      Answers (.holdoverEntry dt) s fun t =>
        t = { v with plumb := t.plumb, links := t.links, log := t.log } ∧ (v.plumb.state.runs = true → t.dataPlane = v.dataPlane) ∧
        t.plumb = { v.plumb with state := .holdover, source := 127, cand := 127, losing := false, deadline := frameOf t.now + 64 }) ∧
    (g = 65536 * u.plumb.deadline → u.plumb.state = .holdover → u.now ≤ g → v = (u.settle g).reach g →
      Answers (.holdoverDeadline dt) s fun t =>
        t.plumb.state = .fenced ∧ t.plumb.source = 127 ∧ t.plumb.hop = 15 ∧ t.dataPlane = false ∧ Stilled t ∧
        .fence g ∈ t.log ∧ t.now = v.now ∧ t.hub = v.hub ∧ t.store = v.store ∧ t.catalogue = v.catalogue ∧
        (v.switches = [] → (∀ c, c ∈ v.cmds → c.opcode ≠ 0x0104) → t.tier1 = v.tier1 ∧ t.tier2 = v.tier2))

/-- A management tick (R403 to R408, R413): it falls on a multiple of 16 frames, and at its end the global registers, and the registers
of every window, show what the state then is. An expert version whose weights were all copied before it is in place from it on (R286). -/
def Obligations.ManagementTick : Prop :=
  ∀ (s u : State) (dt t0 : Nat) (r : TickReport), u = s.after dt → t0 = u.nextTick →
    u.now ≤ t0 ∧ t0 % 1048576 = 0 ∧
    ((u.upto t0).start.stage = .running ∨ (u.upto t0).start.stage = .service →
      Answers (.managementTick dt r) s fun t =>
        t.tickAt = some t0 ∧ t.now = (u.upto t0).now ∧ t.power.dieTemps = r.temps ∧ t.regs = globalRegs t t0 ∧
        SMap.find t.regs 0x20 =
          some (packMsb [(48, frameOf t0), (4, t.plumb.hop), (3, t.plumb.state.code), (7, t.plumb.source), (2, 0)]) ∧
        SMap.find t.regs 0x28 = some (packMsb [(48, if t.plumb.state = .holdover then t.plumb.deadline else 0),
          (16, (BitVec.ofInt 16 t.plumb.src.err).toNat)]) ∧
        (∀ e, e ∈ t.wins → e.2.shownHead = e.2.head ∧
          e.2.shownStatus = packMsb [(32, e.2.expected), (1, b2n e.2.isOpen), (4, if e.1 = 0 then 15 else e.1 - 1), (20, 0),
            (7, t.outstanding e.1)])) ∧
    (∀ jid set version w, w = u.upto t0 → w.start.stage = .running → w.cmds = [] →
      (∀ x, x ∈ (w.serve jid).versions → x.set = set → x.version = version → ∃ c, x.copiedAt = some c ∧ c < w.now) →
      Answers (.managementTick dt r) s fun t =>
        ∀ x, x ∈ (t.serve jid).versions → x.set = set → x.version = version → x.inPlace = true)

/-- The governor at a tick boundary (R460, R461): the tick counts low power, and lets a trip's fence go once the mean is below
2.0 kW; a rest ends after 64 ticks of low power, the latest first; after 2,384 ticks of high power the heaviest multi-module job
pauses. A context's rest frames end with a step boundary. When a rest's marks change, and the count after a pause, are the
model's readings (logs 62 and 73). -/
def Obligations.Governor : Prop :=
  ∀ (s u : State) (dt : Nat), u = s.after dt →
    (∀ r v, v = u.upto u.nextTick → Answers (.managementTick dt r) s fun t =>
      v.start.stage = .running → t.power.samples = v.power.samples ∧
        t.power.tripped = (v.power.tripped && !decide (powerMean v.power < 2000000)) ∧
        t.power.lowTicks = (if powerMean v.power < 2800000 then v.power.lowTicks + 1 else 0)) ∧
    (∀ jid, u.atTick = true → 64 ≤ u.power.lowTicks → u.power.resting.getLast? = some jid →
      Answers (.governorRestEnd dt) s fun t =>
        t = { u with jobs := t.jobs, power := { u.power with resting := u.power.resting.dropLast, lowTicks := 0 } } ∧
        t.job jid = (u.job jid).map (fun x => { x with resting := false, restAsk := none }) ∧ OtherJobs jid u t) ∧
    (∀ jid j, u.atTick = true → 2384 ≤ u.power.highTicks → (jid, j) ∈ u.jobs → u.job jid = some j → j.resident = true →
      j.mode = .running → u.multi j = true →
      (∀ e, e ∈ u.jobs → e ≠ (jid, j) → e.2.resident = true → e.2.mode = .running → u.multi e.2 = true →
        heavier (jid, j) e = true ∧ heavier e (jid, j) = false) →
      Answers (.governorPause dt) s fun t =>
        t.power = { u.power with highTicks := 0 } ∧ t.log = u.log ++ [.governor u.now 2 jid (powerMean u.power)] ∧ OtherJobs jid u t ∧
        (j.busyBefore (frameOf u.now + 1) = true →
          t.job jid = some { j with pauseAsk := some (min (frameOf u.now + 1) (j.pauseAsk.getD (frameOf u.now + 1))) }) ∧
        (j.busyBefore (frameOf u.now + 1) = false → ∃ x, t.job jid = some x ∧ x.mode = .paused ∧ x.nextAt = none)) ∧
    (∀ jid t0 j, (u.job jid).bind (fun j => j.restUntil) = some t0 → u.now ≤ t0 → (u.upto t0).job jid = some j →
      j.restUntil.isSome = true → j.mode = .running → j.stop = none → j.pauseAsk = none → j.leaving = none →
      (j.serve.isNone = true ∨ j.replayRun.isSome = true) →
      Answers (.restFramesEnd dt jid) s fun t =>
        t = { u.upto t0 with jobs := t.jobs } ∧ t.job jid = some { j with restUntil := none, nextAt := some t0 } ∧
        OtherJobs jid (u.upto t0) t)

/-! ### Serving between steps (R281, R282, R286, R289, R300, R301) -/

/-- A change of split (R289), a pressure pause (R300) and a pressure resume (R301). -/
def Obligations.SplitAndPressure : Prop :=
  ∀ (s u : State) (dt jid : Nat) (j : Job) (v : Serve), u = s.after dt → u.job jid = some j → j.serve = some v →
    u.atTick = true →
    (∀ split, v.nearest = split → 4 ≤ v.nearTicks → v.split ≠ split →
      Answers (.splitChange dt jid split) s fun t =>
        t = { u with jobs := t.jobs } ∧ t.job jid = some { j with serve := some { v with split := split } } ∧ OtherJobs jid u t) ∧
    (v.pauseDone = false → policyField v.policy 2 ≠ 0 → 1 ≤ v.pressed → policyField v.policy 3 ≤ v.pressed →
      Answers (.pressurePause dt jid) s fun t =>
        t = { u with jobs := t.jobs, requests := t.requests } ∧ OtherJobs jid u t ∧
        t.job jid = some { j with serve := some { v with pressure := v.pressure ++ pressureVictims u jid, pauseDone := true } } ∧
        (pressureVictims u jid).length ≤ policyField v.policy 2 ∧
        ((pressureVictims u jid).length < policyField v.policy 2 → ∀ e r, (e, r) ∈ u.requests → r.job = jid → r.running = true →
          r.priority ≤ policyField v.policy 0 → e ∉ v.pressedSet → (∃ p, p ∈ v.pressedSet ∧ r.priority < (u.req p).priority) →
          e ∈ pressureVictims u jid) ∧
        (∀ e, e ∈ pressureVictims u jid → (t.req e).state = .parking ∧ ∃ r, (e, r) ∈ u.requests ∧ r.job = jid ∧
          r.running = true ∧ r.priority ≤ policyField v.policy 0 ∧ e ∉ v.pressedSet) ∧
        (∀ e, e ∉ pressureVictims u jid → t.req e = u.req e)) ∧
    (v.resumeDone = false → policyField v.policy 2 ≠ 0 → 1 ≤ v.calm → policyField v.policy 4 ≤ v.calm →
      Answers (.pressureResume dt jid) s fun t =>
        t = { u with jobs := t.jobs, requests := t.requests } ∧ OtherJobs jid u t ∧
        t.job jid = some { j with serve := some { v with
          pressure := v.pressure.filter (fun e => !(pressureReleased u jid).contains e), resumeDone := true } } ∧
        (∀ e, t.req e = if e ∈ pressureReleased u jid then { u.req e with released := true, first := true } else u.req e) ∧
        (pressureReleased u jid).length ≤ policyField v.policy 2 ∧
        (∀ e, e ∈ pressureReleased u jid → e ∈ v.pressure ∧ ∃ r, (e, r) ∈ u.requests ∧ r.job = jid ∧ r.dropped = false ∧
          (r.state = .parked ∨ r.state = .summary)) ∧
        ((pressureReleased u jid).length < policyField v.policy 2 → ∀ e r, (e, r) ∈ u.requests → r.job = jid → r.dropped = false →
          r.state = .parked ∨ r.state = .summary → e ∈ v.pressure → e ∈ pressureReleased u jid))

/-- Lifetimes (R281, R282): a parked sequence whose lifetime ends is summarised; a summary whose lifetime ends expires, and
its places are free again. -/
def Obligations.Lifetimes : Prop :=
  ∀ (s u v : State) (dt e t0 : Nat), u = s.after dt → (u.req e).lifeEnd = some t0 → u.now ≤ t0 → v = u.upto t0 →
    ((u.req e).state = .parked → (v.req e).state = .parked → Answers (.parkLifetimeEnd dt e) s fun t =>
      t = { v with requests := t.requests } ∧ t.req e = { v.req e with summarising := true, lifeEnd := none } ∧
      OtherRequests e v t) ∧
    ((u.req e).state = .summary → (v.req e).state = .summary → Answers (.summaryLifetimeEnd dt e) s fun t =>
      t = { v with requests := t.requests, jobs := t.jobs, cmds := t.cmds } ∧ OtherRequests e v t ∧ (t.req e).sumPlace = none ∧
      (t.req e).places = [] ∧ ((t.req e).state = .expired ∨ (t.req e).state = .free) ∧
      ((∀ c, c ∈ v.cmds → c.waiting = true → c.opcode ≠ 0x0504) → (t.req e).state = .expired ∧ t.cmds = v.cmds))

/-- A summary completes (R282, R304): it stands in the lowest free summary place; with none free the entry expires; an entry that
was cancelled while it did not run finishes. When the place is taken is the model's reading (log 57). -/
def Obligations.SummaryComplete : Prop :=
  ∀ (s u : State) (dt e : Nat) (j : Job) (v : Serve), u = s.after dt → u.job (u.req e).job = some j → j.serve = some v →
    (u.req e).summarising = true → v.coming e = 0 →
    ((u.req e).dropped = true → Answers (.summaryComplete dt e) s fun t =>
      (t.req e).state = .finished ∧ OtherRequests e u t ∧ t.tier2 = u.tier2) ∧
    (∀ q, (u.req e).dropped = false → q < u.srv j 0x30 4 → q ∉ v.sumUsed → (∀ p, p < q → p ∈ v.sumUsed) →
      Answers (.summaryComplete dt e) s fun t =>
        (t.req e).state = .summary ∧ (t.req e).sumPlace = some q ∧ (t.req e).pages = [] ∧ (t.req e).places = [] ∧
        (t.req e).summarising = false ∧ (t.req e).lifeEnd = some (u.now + 1048576 * u.srv j 0x38 4) ∧
        (t.serve (u.req e).job).sumUsed = v.sumUsed ++ [q] ∧ OtherRequests e u t ∧ t.tier1 = u.tier1) ∧
    ((u.req e).dropped = false → (∀ p, p < u.srv j 0x30 4 → p ∈ v.sumUsed) →
      (∀ c, c ∈ u.cmds → c.waiting = true → c.opcode ≠ 0x0504) →
      Answers (.summaryComplete dt e) s fun t => (t.req e).state = .expired ∧ OtherRequests e u t ∧ t.tier2 = u.tier2)

/-- Expert weights copied (R286, R287): the version's weights stand in tier 1 from this stamp on; at the next tick boundary the version
is in place, older versions of its set retire, and the EXPERT_LOAD that waits is answered with the version's number. -/
def Obligations.ExpertWeights : Prop :=
  ∀ (s u : State) (dt jid set version : Nat) (j : Job) (v : Serve), u = s.after dt → u.job jid = some j → j.serve = some v →
    (∃ x, x ∈ v.versions ∧ x.set = set ∧ x.version = version ∧ x.inPlace = false ∧ x.copiedAt = none) →
    (Answers (.expertWeightsInPlace dt jid set version) s fun t =>
      t = { u with jobs := t.jobs, tier1 := t.tier1 } ∧ OtherJobs jid u t ∧
      (t.serve jid).versions = v.versions.map (fun y => if y.set = set ∧ y.version = version then { y with copiedAt := some u.now }
        else y)) ∧
    (∀ x w, x ∈ v.versions → x.inPlace = false → x.copiedAt = some w → w < u.now →
      (placeVersion u jid x).serve jid = { v with versions := v.versions.map (fun y =>
        if y.set = x.set ∧ y.version = x.version then { y with inPlace := true }
        else if y.set = x.set ∧ y.version < x.version then { y with retiring := true } else y) } ∧
      ∀ c, u.cmds.find? (fun c => c.works 0x0601 jid && c.waiting && c.call.par 2 1 == x.set) = some c →
        { c with reply := some { status := 0, stamp := u.now, words := [x.version] } } ∈ (placeVersion u jid x).cmds)

/-! ### Snapshots, the drive, memory, dies (R174, R377, R379, R383, R447) -/

/-- Checkpoints and the drive (R379, R447): the interval asks for a snapshot and begins again, with the checkpoint flag where there is a
drive (log 79); a copy that is complete enters the catalogue and the drive; a drive that fails is absent, and what was being written is not completed. -/
def Obligations.Checkpoints : Prop :=
  ∀ (s u : State) (dt jid : Nat) (j : Job), u = s.after dt →
    (∀ t0, (u.job jid).bind (fun x => x.intervalEnd) = some t0 → u.now ≤ t0 → (u.upto t0).job jid = some j →
      (u.upto t0).leads j = true →
      Answers (.checkpointIntervalEnd dt jid) s fun t =>
        t = { u.upto t0 with jobs := t.jobs } ∧ OtherJobs jid (u.upto t0) t ∧ ∃ x, t.job jid = some x ∧
        x.intervalEnd = some (t0 + 1048576 * j.interval) ∧
        ((u.upto t0).hasManifest j = true → j.capAsk = none →
          x.capAsk = some { number := j.snapNumber + 1, checkpoint := (u.upto t0).drive.present } ∧
          x.snapNumber = j.snapNumber + 1) ∧
        ((u.upto t0).hasManifest j = false → x.capAsk = j.capAsk)) ∧
    (∀ e body places, u.job jid = some j → u.drive.present = true → j.copying = some (e, body, places) →
      Answers (.checkpointComplete dt jid) s fun t =>
        t = { u with jobs := t.jobs, drive := t.drive, catalogue := t.catalogue } ∧ OtherJobs jid u t ∧
        t.job jid = some { j with copying := none } ∧ { e with checkpoint := true } ∈ t.catalogue ∧
        t.drive.catalogue = t.catalogue ∧
        (∃ c, c ∈ t.drive.checkpoints ∧ c.complete = true ∧ c.part = j.part ∧ c.job = jid ∧ c.number = e.number ∧
          c.step = e.step ∧ c.places = places ∧ c.module = e.module) ∧
        (t.drive.checkpoints.filter (fun c => c.part == j.part && c.job == jid && c.module == e.module)).length ≤ 2) ∧
    (Answers (.driveFailure dt) s fun t =>
      t = { u with drive := { u.drive with present := false }, jobs := t.jobs } ∧
      ∀ k, t.job k = (u.job k).map (fun x => { x with copying := none }))

/-- A snapshot completes (R377): its entry stands in the catalogue, and in the drive's copy, in place of the one before last, and
SNAP_TAKE is answered with the number and the step; the parts sent to buddies are those of this snapshot. How partners' parts come
and where they land is the model's reading (logs 29 and 48). -/
def Obligations.SnapshotComplete : Prop :=
  ∀ (s u : State) (dt jid : Nat) (errors : List MemError) (parts : List SnapPart) (j : Job) (c : Capture),
    u = parts.foldl (fun st x => landPart st parts x) (raiseFound (s.after dt) jid errors) →
    u.job jid = some j → j.capture = some c → (∀ r, j.run = some r → r.capture = false) →
    Answers (.snapshotComplete dt { job := jid, errors := errors, parts := parts }) s fun t =>
      t = { u with tier2 := t.tier2, sentParts := t.sentParts, jobs := t.jobs, cmds := t.cmds, catalogue := t.catalogue,
                   drive := if u.drive.present then { u.drive with catalogue := t.catalogue } else u.drive } ∧ OtherJobs jid u t ∧
      (∃ x, t.job jid = some x ∧ x.capture = none) ∧
      (∃ e, e ∈ t.catalogue ∧ e.part = j.part ∧ e.job = jid ∧ e.number = c.number ∧ e.step = c.step ∧ e.checkpoint = false) ∧
      (∀ e, e ∈ t.catalogue → e.part = j.part → e.job = jid → e.checkpoint = false → e.number % 2 = c.number % 2 →
        e.number = c.number) ∧
      (∀ x, x ∈ t.sentParts → x.job = jid → x.number = c.number) ∧
      (∀ x, x.job ≠ jid → (x ∈ t.sentParts ↔ x ∈ u.sentParts)) ∧
      (∀ x, x ∈ u.cmds → x.waiting = true → x.started = true → x.opcode = 0x0401 → Key.job jid ∈ x.keys →
        { x with reply := some { status := 0, stamp := u.now, words := [c.number, 0, c.step % 2 ^ 32, c.step / 2 ^ 32 % 2 ^ 32] } } ∈
          t.cmds)

/-- Released tier-1 memory of a die is zero (R174), and every other byte is as it was. -/
def Obligations.MemoryZeroed : Prop :=
  ∀ (s u : State) (dt die : Nat), u = s.after dt →
    Answers (.memoryZeroed dt die) s fun t =>
      t = { u with tier1 := t.tier1, clearing := u.clearing.filter (fun r => r.1 != die) } ∧
      (∀ r a, r ∈ u.clearing → r.1 = die → 2 ^ 30 * r.2.1 ≤ a → a < 2 ^ 30 * (r.2.1 + r.2.2) →
        Mem.byte (SMap.getD [] t.tier1 die) a = 0) ∧
      (∀ a, (∀ r, r ∈ u.clearing → r.1 = die → ¬ (2 ^ 30 * r.2.1 ≤ a ∧ a < 2 ^ 30 * (r.2.1 + r.2.2))) →
        Mem.byte (SMap.getD [] t.tier1 die) a = Mem.byte (SMap.getD [] u.tier1 die) a) ∧
      (∀ d, d ≠ die → SMap.getD [] t.tier1 d = SMap.getD [] u.tier1 d)

/-- A compute die is lost (R383, R384, R387, R434, R465): the loss is stamped at once. While the module runs, or is in the service state, it
takes effect at the next frame boundary, and the second loss fails the module there; in a start, from P3 on, the die is lost at
start-up, and a second one fails the start. What the loss does at its boundary: the links that the die carries go DOWN, the places that it
held are lost, a context that touches it loses its step and is left REMAPPING or HALTED, with its commands answered DEVICE_FAULT, and any other
goes on. What a failure does: every context is HALTED, and every command but HEALTH_READ, ATTEST_QUOTE and SERVICE_QUIESCE is answered
DEVICE_FAULT. -/
def Obligations.DieLoss : Prop :=
  (∀ w t n die, t = applyAct w n (.loss die) → w.switches = [] → (∀ e, e ∈ w.jobs → e.2.stop = none) →
    t.lostDies = w.lostDies ++ [die] ∧ t.now = w.now ∧ t.tier1 = w.tier1 ∧ t.tier2 = w.tier2 ∧ t.hub = w.hub ∧ t.parts = w.parts ∧
    t.images = w.images ∧ t.wins = w.wins ∧ t.store = w.store ∧
    t.catalogue = w.catalogue.map (fun e => { e with places := e.places.map (fun h =>
      { h with lost := h.lost || (!h.remote && h.holder == die) }) }) ∧
    (∀ l, l < 12 → (t.link (12 * die + l)).state = if (w.link (12 * die + l)).state = .disabled then .disabled else .down) ∧
    (∀ k j, w.job k = some j → touches w j die = true → j.mode ≠ .halted → ∃ x, t.job k = some x ∧ x.run = none ∧ x.nextAt = none ∧
      x.u = j.u ∧ x.selector = j.selector ∧ (x.mode = .remapping ∨ x.mode = .halted)) ∧
    (∀ k j, w.job k = some j → (∀ y, (k, y) ∈ w.jobs → touches w y die = false) → ∃ x, t.job k = some x ∧ x.run = j.run ∧
      x.nextAt = j.nextAt ∧ x.mode = j.mode ∧ x.u = j.u) ∧
    (∀ c k j, c ∈ w.cmds → c.waiting = true → c.names (.job k) = true → w.job k = some j → touches w j die = true → j.mode ≠ .halted →
      ∃ r, r.status = 0x31 ∧ { c with reply := some r } ∈ t.cmds)) ∧
  (∀ w t n, t = applyAct w n .fail → t.failed = true ∧ t.quiescing = true ∧ t.dataPlane = false ∧ t.switches = [] ∧ t.now = w.now ∧
    t.lostDies = w.lostDies ∧ (∀ e, e ∈ t.links → e.2.sched = [] ∧ e.2.lossQ = []) ∧
    ((∀ e, e ∈ w.jobs → e.2.stop = none) →
      (∀ k, (t.job k).isSome = (w.job k).isSome) ∧ (∀ k x, t.job k = some x → x.mode = .halted ∧ x.run = none ∧ x.restoring = none) ∧
      (∀ c, c ∈ w.cmds → c.waiting = true → c.opcode ≠ 0x0901 → c.opcode ≠ 0x0A01 → c.opcode ≠ 0x0B01 →
        ∃ r, r.status = 0x31 ∧ { c with reply := some r } ∈ t.cmds))) ∧
  ∀ (s u : State) (dt die cause : Nat), u = s.after dt → u.dieUp die = true →
    (u.start.stage = .running ∨ u.start.stage = .service → u.failed = false → (∀ a, a ∈ u.acts → a.2 ≠ .loss die) →
      Answers (.dieLoss dt die cause) s fun t =>
        t = { u with lossAt := some u.now, log := u.log ++ [.dieLost u.now die cause], acts := t.acts } ∧
        (∀ a, a ∈ t.acts ↔ a ∈ u.acts ∨ a = (nextFrame u.now, .loss die) ∨ (a = (nextFrame u.now, .fail) ∧
          (u.lostDies ≠ [] ∨ (∃ x, x ∈ u.acts ∧ (x.2 = .fail ∨ ∃ d, x.2 = .loss d)))))) ∧
    (∀ n, 3 ≤ n → u.start.stage = .phase n →
      (u.lostDies = [] → exec (.dieLoss dt die cause) s =
        .next { u with log := u.log ++ [.dieLost u.now die cause], lostDies := [die] }) ∧
      (∀ d, u.lostDies = [d] → Answers (.dieLoss dt die cause) s (StartFailed u)))

/-- A restore and a re-map are verified (R386, R388, R390): every item found, the job stands PAUSED as its snapshot says; an
item that cannot be found halts it. Which places are read, and a scratchpad item of a swapped-out context, are the model's
readings (logs 97 and 105). -/
def Obligations.Restores : Prop :=
  ∀ (s u : State) (dt jid : Nat) (remote : List (Nat × List Byte)) (j : Job), u = (s.after dt).atFrame → u.job jid = some j →
    (∀ e, j.mode = .paused → j.replay = false → (j.resident = true ∨ j.dust.isSome = true ∨ ∀ m, m ∈ manItems (u.manifest j) → m.kind ≠ 3) →
      (∀ c, c ∈ u.cmds → c.opcode ≠ 0x0403) → j.restoring = some (j.part, e.job, e.number, e.checkpoint) →
      u.catEntry j.part e.job e.number e.checkpoint = some e →
      Answers (.restoreVerified dt jid remote) s fun t =>
        (∀ v, restoreItems u jid j e remote = (none, v) →
          t = { v with jobs := t.jobs, cmds := t.cmds } ∧ OtherJobs jid v t ∧ ∃ x y, v.job jid = some x ∧ t.job jid = some y ∧
          y = { x with restoring := none, restored := some (e.part, e.job, e.number), ready := true, sealed := false, nanSum := 0,
                       lastUpdate := none, givenUp := [], control := [], capAsk := x.capAsk.map (fun a => { a with step := none }),
                       mode := y.mode } ∧ (x.mode ≠ .running → y.mode = .paused)) ∧
        (∀ item v, restoreItems u jid j e remote = (some item, v) →
          t = { u with jobs := t.jobs, cmds := t.cmds } ∧ OtherJobs jid u t ∧ ∃ y, t.job jid = some y ∧ y.mode = .halted)) ∧
    (∀ k body tiles, j.mode = .remapping → u.lostDies.getLast? = some k → remapBody u j k = some body →
      (∀ w, w = { j with resident := false, binding := [], body := body } → j.resident = false →
        placeable (u.setJob jid w) jid w [] = some tiles → j.restoring = none →
        Answers (.remapComplete dt jid remote) s fun t => ∃ y, t.job jid = some y ∧ y.body = body ∧ y.binding = tiles ∧
          y.resident = true))

/-- A context switch (R332, R333): it begins at the first frame boundary at which its outgoing contexts have stopped, and each
die's phases begin there; a phase that ends begins the die's next one. With no phase left the switch is done, and recorded. When
the events come, and the rates beside contexts that stay, are the model's readings (logs 24 and 98). -/
def Obligations.ContextSwitch : Prop :=
  ∀ (s u v : State) (dt jid die t0 : Nat) (w : Switch), u = s.after dt → u.switches.find? (fun x => x.incoming == jid) = some w →
    (t0 = max (frameUp u.now) (nextFrame w.decided) → v = u.upto t0 → switchReady u w = true → w ∈ v.switches →
      switchReady v w = true → (∃ d, d < 5 ∧ phaseFrom v w d 0 ≠ 5) →
      Answers (.contextSwitchStart dt jid) s fun t =>
        t = { v with switches := t.switches } ∧ ∃ x, x ∈ t.switches ∧ x.incoming = jid ∧ x.begun = true ∧
        (∀ d, d < 5 → SMap.find x.now_ d = some (phaseFrom v w d 0)) ∧
        (∀ p, p ∈ x.phases → p.2 = t0)) ∧
    (∀ k, SMap.getD 5 w.now_ die = k → k ≠ 5 → w.begun = true →
      t0 = SMap.getD 0 w.phases (8 * die + k) + 65536 * phaseFrames u w die k → u.now ≤ t0 → v = u.upto t0 → w ∈ v.switches →
      phaseFrom (phaseWork v w die k) w die (k + 1) ≠ 5 →
      Answers (.contextSwitchPhase dt jid die) s fun t =>
        t = { v with switches := t.switches, tiles := t.tiles, tier1 := t.tier1, tier2 := t.tier2, fills := t.fills } ∧
        ∃ x, x ∈ t.switches ∧ x.incoming = jid ∧
          SMap.find x.now_ die = some (phaseFrom (phaseWork v w die k) w die (k + 1))) ∧
    (∀ k, SMap.getD 5 w.now_ die = k → k ≠ 5 → w.begun = true →
      t0 = SMap.getD 0 w.phases (8 * die + k) + 65536 * phaseFrames u w die k → u.now ≤ t0 → v = u.upto t0 → w ∈ v.switches →
      phaseFrom (phaseWork v w die k) w die (k + 1) = 5 → (∀ e, e ∈ w.now_ → e.1 = die ∨ e.2 = 5) →
      Answers (.contextSwitchPhase dt jid die) s fun t =>
        (∀ x, x ∈ t.switches → x.incoming ≠ jid) ∧ ∃ x, t.switchLog.head? = some x ∧ x.incoming = jid ∧ x.decided = w.decided ∧
        x.phases = w.phases)

/-! ### The management ports (R443 to R446), the end of a quiesce (R453) -/

/-- Connections (R443 to R446): a client whose key is in the access list is connected under its entry's mask, and with an empty list
the first client's key becomes entry 0; a request that is malformed, or outside the mask, changes nothing but its reply. What counts as
malformed (log 53), what a region write does (log 52) and the bytes that a region read gives (log 72) are the model's readings. -/
def Obligations.ManagementPorts : Prop :=
  ∀ (s u : State) (dt : Nat), u = s.after dt →
    (∀ port key m, portsUp u = true → port < 2 → key.length = 64 → onCurve (keyPoint key) = true →
      (u.conns.filter (fun e => e.2.port == port)).length < 16 →
      (u.store.access.find? (fun e => e.2.key == key) = some m → Answers (.tlsHandshake dt port key) s fun t =>
        t = { u with connSeq := u.connSeq + 1, conns := t.conns } ∧
        SMap.find t.conns (u.connSeq + 1) = some { port := port, mask := m.2.mask }) ∧
      (u.store.access = [] → Answers (.tlsHandshake dt port key) s fun t =>
        t = { u with connSeq := u.connSeq + 1, conns := t.conns,
                     store := { u.store with access := [(0, { mask := 1, key := key })] } } ∧
        SMap.find t.conns (u.connSeq + 1) = some { port := port, mask := 1 })) ∧
    (∀ conn c head, SMap.find u.conns conn = some c →
      Answers (.managementRead dt conn head) s fun t =>
        t = { u with conns := t.conns } ∧ ∃ x, SMap.find t.conns conn = some x ∧ x.port = c.port ∧ x.mask = c.mask ∧
        x.out.take 1 = [if requestOk head 1 = false then 2
          else if requestReaches c.mask (leAt head 8 8 - 2 ^ 40) (leAt head 4 4) = false then 1 else 0] ∧
        (x.out.take 1 = [0] → x.out.drop 16 = readRegion u (leAt head 8 8 - 2 ^ 40) (leAt head 4 4)) ∧
        (x.out.take 1 ≠ [0] → x.out.drop 16 = [])) ∧
    (∀ conn c head data, SMap.find u.conns conn = some c →
      (requestOk head 2 = true → data.length = leAt head 4 4 →
        requestReaches c.mask (leAt head 8 8 - 2 ^ 40) data.length = true →
        Answers (.managementWrite dt conn head data) s fun t =>
          t = { writeRegion u (leAt head 8 8 - 2 ^ 40) data with conns := t.conns } ∧
          ∃ x, SMap.find t.conns conn = some x ∧ x.out.take 1 = [0]) ∧
      (requestOk head 2 = false ∨ data.length ≠ leAt head 4 4 ∨
          requestReaches c.mask (leAt head 8 8 - 2 ^ 40) data.length = false →
        Answers (.managementWrite dt conn head data) s fun t => t = { u with conns := t.conns } ∧
          ∃ x, SMap.find t.conns conn = some x ∧ (x.out.take 1 = [1] ∨ x.out.take 1 = [2])))

/-- A quiesce ends (R453, R454): steps 3 and 4 are done, the drive holds a copy of the catalogue and has been sent a shutdown notification, and the quiesce commands that
wait are answered OK. -/
def Obligations.QuiesceEnds : Prop :=
  ∀ (s u : State) (dt : Nat), u = s.after dt →
    u.quiesce = .closing ∨ (u.quiesce = .orderly ∧ ∀ e, e ∈ u.jobs → ∃ x, e.2.stop = some x ∧ x.reached = true) →
    Answers (.quiesceComplete dt) s fun t =>
      t = { u with quiesce := .done, cmds := t.cmds,
                   drive := if u.drive.present then { u.drive with catalogue := u.catalogue, shutdown := true } else u.drive } ∧
      t.dataPlane = false ∧
      (∀ c, c ∈ u.cmds → c.waiting = true → c.opcode = 0x0B01 → { c with reply := some { status := 0, stamp := u.now } } ∈ t.cmds)

/-! ### Host commands: packets, checks, refusals (R409 to R416) -/

/-- A packet's 64 bytes spell it (R409), and a flit's 256 bytes (R342): every field at every value that fits its place is read back. -/
def Obligations.WireRoundTrips : Prop :=
  (∀ (op seq : Nat) (c : Call), c.wf = true → op < 65536 → seq < 2 ^ 32 →
    (packetBytes op seq c).length = 64 ∧ commandPacket c.win (packetBytes op seq c) = (op, seq, { c with mem := [] })) ∧
  (∀ f : Flit, f.wf = true → f.type < 8 → f.payload.length = 240 → (flitBytes f).length = 256 ∧ flitOf (flitBytes f) = some { f with stamp := 0 })

/-- A host command that passes its checks takes effect (R413, R415): the next state is what its handler answers, and its reply, if it
has completed, waits to be posted. Where firmware meets a memory error that no layer corrects, the command has no effect and is answered
DEVICE_FAULT (R169, log 88). One that fails a check of R415 has no effect but its collection and its answer: the status of the first
check that fails, stamped with the boundary. -/
def Obligations.CommandOutcome : Prop :=
  (∀ (i : Instr) (s v : State) (x : Cmd) (dt : Nat) (c : Call), Takes i s v x →
    i ∈
      [Instr.partCreate dt c, .partDestroy dt c, .partSeal dt c, .partSetSlice dt c, .imageLoad dt c, .imageUnload dt c,
       .jobStart dt c, .jobPause dt c, .jobResume dt c, .jobStop dt c, .stepReplay dt c, .snapTake dt c, .snapRestore dt c,
       .snapVerify dt c, .reqAdmit dt c, .reqCancel dt c, .reqPause dt c, .reqResume dt c, .resultRead dt c, .resultRelease dt c,
       .expertLoad dt c, .expertRetire dt c, .budgetSet dt c, .fabricDiscover dt c, .routeInstall dt c, .linkRetrain dt c,
       .linkRetrainDisable dt c, .linkRetrainEnable dt c, .linkRetrainLimit dt c, .healthRead dt c, .riskSetThreshold dt c,
       .attestQuote dt c, .installImageKey dt c, .removeImageKey dt c, .setAccessEntry dt c, .exportKeyPair dt c, .importKeyPair dt c,
       .orderlyQuiesce dt c, .emergencyQuiesce dt c] →
    Answers i s fun t => ∀ w, (w = match (handle v x).2 with
        | some rep => (handle v x).1.answer (fun y => y.id == x.id) (fun _ => rep)
        | none => (handle v x).1) →
      t = { w with cmds := w.cmds.map (Cmd.settled w.now) }) ∧
  (∀ (i : Instr) (s v : State) (x : Cmd), Collected i s v x → anyLost x.call.mem = true →
    Answers i s fun t => t = { countAll v x.call.mem with cmds := t.cmds } ∧ RefusedWith t x 0x31 []) ∧
  (∀ (i : Instr) (s u : State) (dt op st : Nat) (c : Call),
    hostRow i = some (dt, op, c) → i.wf = true → u = atSlot s dt op c → (boundaryFor s dt c).takesNext c.win = true → u.cmds = [] →
    u.mayCollect c.win = true → firstCheck u op c (blockOf u c) = some st → st ≠ 0 →
    exec i s = .next { collectedIn u op c with
      cmds := [{ cmdOf u op c with started := false, reply := some { status := st, stamp := u.now } }] })

/-! ### Partitions and images (R61, R316 to R318, R335) -/

/-- PART_CREATE (R318): a FREE record becomes OPEN with the block's resources and fresh keys, and its window opens; a record that is
not FREE gives NO_RESOURCE. -/
def Obligations.PartitionCreated : Prop :=
  ∀ (s v : State) (x : Cmd) (dt p : Nat) (c : Call) (new : Part), Takes (.partCreate dt c) s v x → p = leAt x.block 0 1 →
    new = { ({} : Part).withBlock x.block with state := .open_, privileged := bitOf (leAt x.block 2 1) 0 } →
    ((v.part p).state = .free → partFits v p new = true → stillClearing v new = false → Answers (.partCreate dt c) s fun t =>
      t = { v with parts := t.parts, wins := t.wins, draws := v.draws + 2, cmds := t.cmds } ∧
      t.part p = { new with keys := leBytes 32 (Config.random v.draws) ++ leBytes 32 (Config.random (v.draws + 1)) } ∧
      (∀ q, q ≠ p → t.part q = v.part q) ∧ (t.win (p + 1)).fresh ∧ (∀ w, w ≠ p + 1 → t.win w = v.win w) ∧ Replied t v x false []) ∧
    ((v.part p).state ≠ .free ∨ partFits v p new = false → Answers (.partCreate dt c) s fun t =>
      t = { v with cmds := t.cmds } ∧ RefusedWith t x 0x12 [])

/-- PART_DESTROY, PART_SEAL and PART_SET_SLICE (R318, R335, R430). The work of the first and the last waits for the next frame boundary, and
there, with the contexts gone, the partition's record is FREE again, its tiles and its window's data are gone, its staging and result
areas are zero, or its block is in force; then the command is answered. A prefix index is kept through a change of slice that takes no
memory by the model's reading (log 103). -/
def Obligations.PartitionCommands : Prop :=
  ∀ (s v : State) (x : Cmd) (dt : Nat) (c : Call),
    (∀ p, p = c.par 0 1 → Takes (.partDestroy dt c) s v x → v.jobsOf p = [] → (v.part p).state ≠ .free →
      Answers (.partDestroy dt c) s fun t =>
        t = { v with parts := t.parts, acts := t.acts, cmds := t.cmds } ∧ x ∈ t.cmds ∧
        t.part p = { v.part p with state := .closing } ∧ (∀ q, q ≠ p → t.part q = v.part q) ∧
        (∀ a, a ∈ t.acts ↔ a ∈ v.acts ∨ a = (nextFrame v.now, .parts))) ∧
    (∀ p w n t, t = applyAct w n .parts → w.cmds = [x] → x.opcode = 0x0102 → x.started = true → x.reply = none → x.partition = p →
      w.jobsOf p = [] →
      t = { w with parts := t.parts, tiles := t.tiles, images := t.images, budgets := t.budgets, wins := t.wins,
                   hub := t.hub, clearing := t.clearing, cmds := t.cmds } ∧
      (∀ a, Mem.byte t.hub a = if (stagingAt p ≤ a ∧ a < stagingAt p + 2 ^ 32) ∨ (resultAt p ≤ a ∧ a < resultAt p + 2 ^ 32) then 0
        else Mem.byte w.hub a) ∧
      (t.part p).state = .free ∧ (∀ q, q ≠ p → t.part q = w.part q) ∧
      (∀ k, k < 60 → bitOf (w.part p).tiles k = true → t.tile k = {}) ∧
      (∀ i, i ∈ t.images ↔ i ∈ w.images ∧ i.part ≠ p) ∧ (∀ b, b ∈ t.budgets ↔ b ∈ w.budgets ∧ b.2.part ≠ p) ∧
      (t.win (p + 1)).isOpen = false ∧ { x with reply := some { status := 0, stamp := w.now } } ∈ t.cmds) ∧
    (Takes (.partSeal dt c) s v x → (v.part (c.par 0 1)).state = .open_ ∨ (v.part (c.par 0 1)).state = .sealed →
      Answers (.partSeal dt c) s fun t =>
        t = { v with parts := t.parts, cmds := t.cmds } ∧ t.part (c.par 0 1) = { v.part (c.par 0 1) with state := .sealed } ∧
        (∀ q, q ≠ c.par 0 1 → t.part q = v.part q) ∧ Replied t v x false []) ∧
    (∀ p, Takes (.partSetSlice dt c) s v x → p = leAt x.block 0 1 → (v.part p).state = .open_ →
      (∀ e, e ∈ v.jobsOf p → sliceHits (v.part p) ((v.part p).withBlock x.block) e.2 = false) →
      bitOf (leAt x.block 2 1) 0 = (v.part p).privileged → partFits v p ((v.part p).withBlock x.block) = true →
      stillClearing v ((v.part p).withBlock x.block) = false →
      Answers (.partSetSlice dt c) s fun t =>
        t = { v with acts := t.acts, cmds := t.cmds } ∧ x ∈ t.cmds ∧
        (∀ a, a ∈ t.acts ↔ a ∈ v.acts ∨ a = (nextFrame v.now, .parts))) ∧
    (∀ p w n t, t = applyAct w n .parts → w.cmds = [x] → x.opcode = 0x0104 → x.started = true → x.reply = none → x.partition = p →
      w.jobsOf p = [] → w.switches = [] →
      t = { w with parts := t.parts, tiles := t.tiles, clearing := t.clearing, cmds := t.cmds } ∧
      t.part p = { (w.part p).withBlock x.block with
        prefixes := if shrinks (w.part p) ((w.part p).withBlock x.block) then [] else (w.part p).prefixes } ∧
      (∀ q, q ≠ p → t.part q = w.part q) ∧
      (∀ k, k < 60 → bitOf (w.part p).tiles k = true → bitOf (t.part p).tiles k = false → t.tile k = {}) ∧
      { x with reply := some { status := 0, stamp := w.now } } ∈ t.cmds)

/-- IMAGE_LOAD and IMAGE_UNLOAD (R61, R419): a file that passes every check takes a free handle, the lowest by the model's choice (log 122); one
that fails is answered with the failing check; a handle that no job holds is free again. -/
def Obligations.ImageCommands : Prop :=
  ∀ (s v : State) (x : Cmd) (dt : Nat) (c : Call),
    (∀ f h, Takes (.imageLoad dt c) s v x → imageFile v c = some f → h < 16 → v.image c.pid h = none →
      (∀ k, k < h → v.image c.pid k ≠ none) →
      Answers (.imageLoad dt c) s fun t =>
        ((verdict v c.pid f).1 = 0 →
          t = { v with images := v.images ++ [{ imageOf c.pid f with handle := h }], cmds := t.cmds } ∧
          Replied t v x true ([h, 0, 0, 0] ++ wordsOf ((imageOf c.pid f).digest.take 32))) ∧
        (∀ n, n ≠ 0 → (verdict v c.pid f).1 = n →
          t = { v with cmds := t.cmds } ∧ RefusedWith t x n (if n = 0x20 then [] else [(verdict v c.pid f).2]))) ∧
    (Takes (.imageUnload dt c) s v x → (∀ e, e ∈ v.jobs → ¬ (e.2.part = c.pid ∧ e.2.handle = c.par 0 1)) →
      Answers (.imageUnload dt c) s fun t =>
        t = { v with images := t.images, cmds := t.cmds } ∧ t.image c.pid (c.par 0 1) = none ∧
        (∀ i, i ∈ t.images ↔ i ∈ v.images ∧ ¬ (i.part = c.pid ∧ i.handle = c.par 0 1)) ∧ Replied t v x false [])

/-! ### Jobs and snapshots (R334, R373, R388, R390, R396, R397, R419, R421) -/

/-- JOB_START of a job that is neither a replay nor restored (R421): with nothing lacking, the job stands as its block says, its
homes' ownership entries are installed, and the reply waits for the first step. At the next frame boundary its accumulators (R244) and its
residual stores (R254) are zeroed, and nothing but tier 1 changes; where a tick has placed its context, it takes its tiles there (R319, R331).
The quota of an ownership entry is log 49's choice, and the notice paths that reason 3 measures are log 61's. -/
def Obligations.JobStarted : Prop :=
  (∀ w t n jid j i, w.job jid = some j → w.jobImage j = some i → t = applyAct w n (.zero jid false) →
    t = { w with tier1 := t.tier1 } ∧
    (∀ b a x, b ∈ homedBuckets i j.body → (w.part j.part).windowAddr b.die false (32 * b.acc) (8 * b.elements) = some a → a ≤ x →
      x < a + 8 * b.elements → Mem.byte (SMap.getD [] t.tier1 b.die) x = 0) ∧
    (∀ die x, (∀ b a, b ∈ homedBuckets i j.body → b.die = die →
        (w.part j.part).windowAddr die false (32 * b.acc) (8 * b.elements) = some a → ¬ (a ≤ x ∧ x < a + 8 * b.elements)) →
      Mem.byte (SMap.getD [] t.tier1 die) x = Mem.byte (SMap.getD [] w.tier1 die) x)) ∧
  (∀ w t n jid, t = applyAct w n (.zero jid true) → t = { w with tier1 := t.tier1 } ∧ (w.job jid = none → t = w)) ∧
  (∀ w t n jid j sw, t = applyAct w n (.take jid) → w.job jid = some j → w.switches.find? (fun x => x.incoming == jid) = some sw →
    t = { w with jobs := t.jobs, tiles := t.tiles, switches := t.switches } ∧ OtherJobs jid w t ∧ (∀ x, x ∈ t.switches → x.incoming ≠ jid) ∧
    (∃ x, t.job jid = some x ∧ x.resident = true ∧ x.binding = sw.binding ∧ x.mode = j.mode ∧ x.run = j.run) ∧
    (∀ b, b ∈ sw.binding → (t.tile b.2).job = some jid) ∧ (∀ k, (∀ b, b ∈ sw.binding → b.2 ≠ k) → t.tile k = w.tile k)) ∧
  ∀ (s v : State) (x : Cmd) (dt jid : Nat) (c : Call) (i : Image) (j0 : Job), Takes (.jobStart dt c) s v x → jid = leAt x.block 4 2 →
    v.image c.pid (leAt x.block 0 4) = some i → j0 = newJob v x i → bitOf (leAt x.block 6 2) 1 = false →
    bitOf (leAt x.block 6 2) 3 = false → v.quiesce = .none → (v.part c.pid).state ≠ .closing →
    (i.flag 2 = true → v.number ≠ none) → v.job jid = none → lacksRoom v j0 i = false →
    quotasFit v (ownEntries i j0.body c.pid (Config.carryQuota % 65)) = true →
    (∀ sv, j0.serve = some sv → (resultRoom v c.pid (sv.places * sv.placeBytes)).isSome = true) →
    linkReason v i j0.body = none →
    (i.flag 3 = true → frameOf v.now + (if serves i.kind then 16 else 1) ≤ j0.firstFrame) →
    Answers (.jobStart dt c) s fun t =>
      x ∈ t.cmds ∧ OtherJobs jid v t ∧ t.images = v.images ∧ (nextFrame v.now, .zero jid true) ∈ t.acts ∧
      (∀ q, { t.part q with prefixes := [] } = { v.part q with prefixes := [] }) ∧
      (∀ k e, SMap.find (ownEntries i j0.body c.pid (Config.carryQuota % 65)) k = some e → SMap.find (t.ctl k).own jid = some e) ∧
      ∃ j, t.job jid = some j ∧ j.part = c.pid ∧ j.handle = leAt x.block 0 4 ∧ j.kind = i.kind ∧ j.body = j0.body ∧
        j.mode = .running ∧ j.run = none ∧ j.firstFrame = leAt x.block 8 8 ∧ j.pin = bitOf (leAt x.block 6 2) 0

/-- JOB_PAUSE, JOB_RESUME, JOB_STOP and STEP_REPLAY (R334, R396, R397, R418, R419). A late commit that a resume asks for is made at the next
frame boundary (R392). -/
def Obligations.JobCommands : Prop :=
  (∀ w t n jid, t = applyAct w n (.lateCommit jid) → t = { w with jobs := t.jobs, log := w.log ++ [.lateCommit n jid] } ∧ OtherJobs jid w t ∧
    t.job jid = (w.job jid).map (fun j => { j with selector := !j.selector, u := (j.u + 1) % 2 ^ 48, sealed := false })) ∧
  ∀ (s v : State) (x : Cmd) (dt jid : Nat) (c : Call) (j : Job),
    (Takes (.jobPause dt c) s v x → jid = c.par 0 2 → v.job jid = some j →
      (j.mode = .paused → Answers (.jobPause dt c) s fun t =>
        t = { v with cmds := t.cmds } ∧ Replied t v x false [j.nextStep % 2 ^ 32, j.nextStep / 2 ^ 32 % 2 ^ 32]) ∧
      (j.mode = .running → j.busyBefore (frameOf v.now + 1) = false → Answers (.jobPause dt c) s fun t =>
        t = { v with jobs := t.jobs, cmds := t.cmds } ∧ OtherJobs jid v t ∧ (∃ y, t.job jid = some y ∧ y.mode = .paused ∧
          y.nextAt = none ∧ y.nextStep = j.nextStep) ∧
        Replied t v x false [j.nextStep % 2 ^ 32, j.nextStep / 2 ^ 32]) ∧
      (j.mode = .running → j.busyBefore (frameOf v.now + 1) = true → Answers (.jobPause dt c) s fun t =>
        t = { v with jobs := t.jobs, cmds := t.cmds } ∧ x ∈ t.cmds ∧ OtherJobs jid v t ∧
        t.job jid = some { j with pauseAsk := some (min (frameOf v.now + 1) (j.pauseAsk.getD (frameOf v.now + 1))) })) ∧
    (∀ i, Takes (.jobResume dt c) s v x → jid = c.par 0 2 → v.job jid = some j → v.jobImage j = some i → j.mode = .paused →
      j.replay = false → v.quiesce = .none → v.plumb.state.runs = true → j.restored = none → c.par 8 8 = j.u →
      linkReason v i j.body = none →
      Answers (.jobResume dt c) s fun t =>
        t = { v with jobs := t.jobs, acts := t.acts, cmds := t.cmds } ∧ x ∈ t.cmds ∧ OtherJobs jid v t ∧
        (∀ a, a ∈ t.acts ↔ a ∈ v.acts ∨ a = (nextFrame v.now, .zero jid false)) ∧
        ∃ y, t.job jid = some y ∧ y.mode = .running ∧ y.firstFrame = c.par 24 8 ∧
          y.nextAt = (if j.resident && j.ready && j.leaving.isNone && v.dataPlane &&
              (j.serve.isNone || j.replayRun.isSome || !v.leads j) then
            some (max (65536 * max (c.par 24 8) (frameOf v.now + 1)) (j.restUntil.getD 0)) else none)) ∧
    (∀ y, Takes (.jobStop dt c) s v x → jid = c.par 0 2 → v.job jid = some j → c.par 8 8 = 2 ^ 64 - 1 → j.stop = none →
      y = { last := none, frame := frameOf v.now + 1, ends := true } →
      (j.busyBefore (frameOf v.now + 1) = false → Answers (.jobStop dt c) s fun t =>
        t = { v with jobs := t.jobs, acts := t.acts, cmds := t.cmds } ∧ x ∈ t.cmds ∧ OtherJobs jid v t ∧
        (∀ a, a ∈ t.acts ↔ a ∈ v.acts ∨ a = (nextFrame v.now, .fence jid)) ∧
        t.job jid = some { j with stop := some { y with reached := !(j.resident && j.restUntil.isNone) } }) ∧
      (j.busyBefore (frameOf v.now + 1) = true → Answers (.jobStop dt c) s fun t =>
        t = { v with jobs := t.jobs, cmds := t.cmds } ∧ x ∈ t.cmds ∧ OtherJobs jid v t ∧ t.job jid = some { j with stop := some y })) ∧
    (∀ w n t y, t = applyAct w n (.fence jid) → w.job jid = some j → j.stop = some y → y.ends = true → j.run = none → w.cmds = [x] →
      x.works 0x0304 jid = true → x.reply = none → (∀ z, z ∈ w.switches → z.incoming ≠ jid) →
      t.job jid = none ∧ OtherJobs jid w t ∧ { x with reply := some { status := 0, stamp := w.now } } ∈ t.cmds ∧
      (∀ e, e ∈ t.requests ↔ e ∈ w.requests ∧ e.2.job ≠ jid) ∧ (∀ k, k < 20 → SMap.find (t.ctl k).own jid = none)) ∧
    (∀ n r, Takes (.stepReplay dt c) s v x → jid = leAt x.block 0 2 → v.job jid = some j → j.replay = true → j.mode = .paused →
      j.ready = true → v.quiesce = .none → leAt x.block 8 8 = j.nextStep → leAt x.block 2 1 = 0 →
      r = { last := leAt x.block 0x10 8, trace := 0, source := originals (replaySource v x j), accepted := replayCounts v x j,
            excluded := (List.range (leAt x.block 4 1)).map (fun k => leAt x.block (0x40 + 2 * k) 2),
            area := 32 * leAt x.block 0x18 8, areaLen := leAt x.block 0x20 8 } →
      replayNext r j.nextStep = some n →
      Answers (.stepReplay dt c) s fun t =>
        t = { v with jobs := t.jobs, cmds := t.cmds } ∧ x ∈ t.cmds ∧ OtherJobs jid v t ∧
        ∃ y, t.job jid = some y ∧ y.mode = .running ∧ y.nextStep = n ∧ y.replayRun = some r)

/-- SNAP_TAKE, SNAP_RESTORE and SNAP_VERIFY (R373, R388, R390): a request is noted on the lead module; a restore names its entry
of the catalogue and holds the job; both, and the checks, are answered later. Which module leads is as far as the model can know
it (log 33). -/
def Obligations.SnapshotCommands : Prop :=
  ∀ (s v : State) (x : Cmd) (dt jid : Nat) (c : Call) (j : Job),
    (Takes (.snapTake dt c) s v x → jid = c.par 0 2 → v.job jid = some j → v.hasManifest j = true → v.leads j = true →
      (bitOf (c.par 2 1) 0 = true → v.drive.present = true) →
      Answers (.snapTake dt c) s fun t =>
        t = { v with jobs := t.jobs, cmds := t.cmds } ∧ x ∈ t.cmds ∧ OtherJobs jid v t ∧ ∃ y, t.job jid = some y ∧
        (∀ a, j.capAsk = none → a = { number := j.snapNumber + 1, checkpoint := bitOf (c.par 2 1) 0 } →
          y = { j with capAsk := some a, snapNumber := j.snapNumber + 1 }) ∧
        (∀ a b, j.capAsk = some a → b = { a with checkpoint := a.checkpoint || (bitOf (c.par 2 1) 0 && a.step.isNone) } →
          y = { j with capAsk := some b })) ∧
    (∀ e, Takes (.snapRestore dt c) s v x → jid = c.par 8 2 → c.par 0 2 = jid → v.job jid = some j →
      j.mode = .paused ∨ j.mode = .remapping → v.catEntry j.part jid (c.par 4 4) (bitOf (c.par 2 1) 0) = some e →
      (bitOf (c.par 2 1) 0 = true → v.drive.present = true) →
      Answers (.snapRestore dt c) s fun t =>
        t = { v with jobs := t.jobs, cmds := t.cmds } ∧ x ∈ t.cmds ∧ OtherJobs jid v t ∧
        t.job jid = some { j with restoring := some (j.part, e.job, e.number, e.checkpoint), ready := false }) ∧
    (∀ e, Takes (.snapVerify dt c) s v x → jid = c.par 0 2 → v.job jid = some j →
      v.catEntry j.part jid (c.par 4 4) (bitOf (c.par 2 1) 0) = some e → (bitOf (c.par 2 1) 0 = true → v.drive.present = true) →
      Answers (.snapVerify dt c) s fun t => t = { v with cmds := t.cmds } ∧ x ∈ t.cmds)

/-! ### Requests, results, experts, budgets (R272, R273, R281 to R283, R286, R287, R291 to R294, R304) -/

/-- REQ_ADMIT (R273, R294, R305): a free entry of the table and a free slot of the job are taken, the entry is WAITING, and the reply gives it;
at the next frame boundary the sequence's counts stand in tier 1. That the lowest free ones are taken is the model's choice (log 123). -/
def Obligations.RequestAdmitted : Prop :=
  (∀ w t n jid j die off len bs a, t = applyAct w n (.counts jid die off len bs) → w.job jid = some j → bs.length ≤ len →
    (w.part j.part).windowAddr die false off len = some a →
    t = { w with tier1 := t.tier1 } ∧ (∀ d, d ≠ die → SMap.getD [] t.tier1 d = SMap.getD [] w.tier1 d) ∧
    ∀ x, Mem.byte (SMap.getD [] t.tier1 die) x =
      if a ≤ x ∧ x < a + len then bs.getD (x - a) 0 else Mem.byte (SMap.getD [] w.tier1 die) x) ∧
  ∀ (s v : State) (x : Cmd) (dt jid e slot : Nat) (c : Call) (j : Job), Takes (.reqAdmit dt c) s v x → jid = leAt x.block 0 2 →
    v.job jid = some j → j.replay = false → v.leads j = true →
    (((v.budget (leAt x.block 2 2)).enable = true ∧ (v.budget (leAt x.block 2 2)).part = j.part) →
      (∀ q, q ∈ v.requests → q.2.state ≠ .free → q.1 ≠ e) → e < 16384 →
      (∀ k, k < e → ∃ r, (k, r) ∈ v.requests ∧ r.state ≠ .free) →
      slot < v.srv j 0x18 4 → (∀ q, q ∈ v.requests → q.2.job = jid → q.2.state ≠ .free → q.2.head ≠ slot) →
      (∀ k, k < slot → ∃ q, q ∈ v.requests ∧ q.2.job = jid ∧ q.2.state ≠ .free ∧ q.2.head = k) →
      Answers (.reqAdmit dt c) s fun t =>
        t = { v with requests := t.requests, admissions := v.admissions + 1, acts := t.acts, cmds := t.cmds } ∧
        (∀ a, a ∈ t.acts ↔ a ∈ v.acts ∨ a = (nextFrame v.now, .counts jid (leAt x.block 7 1) (32 * leAt x.block 0x18 4)
          (countsBytes (v.vocab j)) (slice x.block 64 128))) ∧
        OtherRequests e v t ∧ (t.req e).state = .waiting ∧ (t.req e).job = jid ∧ (t.req e).part = j.part ∧
        (t.req e).head = slot ∧ (t.req e).tenant = leAt x.block 2 2 ∧ (t.req e).limit = leAt x.block 0x10 4 ∧
        (t.req e).remaining = leAt x.block 0x14 4 ∧ (t.req e).length = 0 ∧ (t.req e).priority = leAt x.block 4 1 ∧
        (t.req e).deadline = leAt x.block 8 8 ∧ (t.req e).admission = v.admissions + 1 ∧
        (t.req e).tokens = tokensAt x.block 192 (leAt x.block 0x14 4) ∧
        Replied t v x true (fitTo 0 4 [e, (v.admissions + 1) % 2 ^ 32] ++ wordsOf (t.req e).bytes)) ∧
    ((v.budget (leAt x.block 2 2)).enable = false ∨ (v.budget (leAt x.block 2 2)).part ≠ j.part →
      Answers (.reqAdmit dt c) s fun t => t = { v with cmds := t.cmds } ∧ RefusedWith t x 0x20 [])

/-- REQ_CANCEL, REQ_PAUSE and REQ_RESUME (R281, R283, R304) on an entry of a job that is served here. Which module serves is as
far as the model can know it (log 33); that a resume's tokens are appended without a bound, and Remaining computed again, is the model's
reading (log 78). -/
def Obligations.RequestCommands : Prop :=
  ∀ (s v : State) (x : Cmd) (dt jid e : Nat) (c : Call) (j : Job), v.job jid = some j → j.replay = false → v.leads j = true →
    (Takes (.reqCancel dt c) s v x → jid = c.par 0 2 → e = c.par 4 4 → (v.req e).cancelled = false →
      ((v.req e).running = true ∨ (v.req e).state = .unparking → Answers (.reqCancel dt c) s fun t =>
        t = { v with requests := t.requests, jobs := t.jobs, cmds := t.cmds } ∧ OtherRequests e v t ∧
        t.req e = { v.req e with cancelled := true } ∧ Replied t v x true ([0, 0, 0, 0] ++ wordsOf (t.req e).bytes)) ∧
      ((v.req e).state = .waiting ∨ (v.req e).state = .parked ∨ (v.req e).state = .summary → (v.req e).summarising = false →
        Answers (.reqCancel dt c) s fun t =>
          t = { v with requests := t.requests, jobs := t.jobs, cmds := t.cmds } ∧ OtherRequests e v t ∧
          (t.req e).state = .finished ∧ (t.req e).cancelled = true ∧ (t.req e).places = [] ∧ (t.req e).sumPlace = none ∧
          Replied t v x true ([0, 0, 0, 0] ++ wordsOf (t.req e).bytes))) ∧
    (Takes (.reqPause dt c) s v x → jid = c.par 0 2 → e = c.par 4 4 → (v.req e).running = true → (v.req e).cancelled = false →
      Answers (.reqPause dt c) s fun t =>
        t = { v with requests := t.requests, cmds := t.cmds } ∧ OtherRequests e v t ∧
        t.req e = { v.req e with state := .parking, ttl := if c.par 8 4 = 0 then v.srv j 0x34 4 else c.par 8 4 } ∧
        Replied t v x true ([0, 0, 0, 0] ++ wordsOf (t.req e).bytes)) ∧
    (∀ more, Takes (.reqResume dt c) s v x → jid = leAt (c.fields x.block) 0 2 → e = leAt (c.fields x.block) 4 4 →
      more = (if c.indirect then tokensAt x.block 32 (leAt x.block 8 4) else []) →
      (v.req e).state = .parked ∨ (v.req e).state = .summary → (v.req e).dropped = false →
      Answers (.reqResume dt c) s fun t =>
        t = { v with requests := t.requests, jobs := t.jobs, cmds := t.cmds } ∧ OtherRequests e v t ∧ x ∈ t.cmds ∧
        t.req e = { v.req e with released := true, first := true, tokens := (v.req e).tokens ++ more,
                                 remaining := if more = [] then (v.req e).remaining
                                   else (v.req e).base + ((v.req e).tokens ++ more).length - (v.req e).length })

/-- RESULT_READ and RESULT_RELEASE (R291): a posted record is found by its step, and gives up its place when it is released; a step
not posted yet is NOT_READY, one that is past is STALE. -/
def Obligations.ResultCommands : Prop :=
  ∀ (s v : State) (x : Cmd) (dt jid : Nat) (c : Call) (j : Job) (w : Serve), v.job jid = some j → j.serve = some w →
    v.leads j = true → jid = c.par 0 2 →
    (∀ p, Takes (.resultRead dt c) s v x → w.posted.find? (fun q => q.step == c.par 8 8) = some p →
      Answers (.resultRead dt c) s fun t => t = { v with cmds := t.cmds } ∧
        Replied t v x false [(w.base + p.place * w.placeBytes) % 2 ^ 32, (w.base + p.place * w.placeBytes) / 2 ^ 32 % 2 ^ 32, p.bytes]) ∧
    (∀ p, Takes (.resultRelease dt c) s v x → w.posted.find? (fun q => q.step == c.par 8 8) = some p →
      Answers (.resultRelease dt c) s fun t =>
        t = { v with jobs := t.jobs, cmds := t.cmds } ∧ OtherJobs jid v t ∧
        t.job jid = some { j with serve := some { w with posted := w.posted.filter (fun q => q.step != c.par 8 8),
                                                         usedPlaces := w.usedPlaces.filter (fun q => q != p.place) } } ∧
        Replied t v x false []) ∧
    (∀ i, (i = .resultRead dt c ∨ i = .resultRelease dt c) → Takes i s v x → (∀ q, q ∈ w.posted → q.step ≠ c.par 8 8) →
      (w.newest = none → Answers i s fun t => t = { v with cmds := t.cmds } ∧ RefusedWith t x 0x02 [2 ^ 32 - 1, 2 ^ 32 - 1]) ∧
      (∀ n, w.newest = some n → Answers i s fun t => t = { v with cmds := t.cmds } ∧
        RefusedWith t x (if c.par 8 8 ≤ n then 0x32 else 0x02)
          (if c.par 8 8 ≤ n ∧ i = .resultRelease dt c then [] else [n % 2 ^ 32, n / 2 ^ 32 % 2 ^ 32])))

/-- EXPERT_LOAD and EXPERT_RETIRE (R22, R286, R287): slots that are free on the whole module are taken by a new version, answered once its weights
are in place; a version named retires. That a set's versions are numbered one after the other is the model's choice (log 124). -/
def Obligations.ExpertCommands : Prop :=
  ∀ (s v : State) (x : Cmd) (dt jid : Nat) (c : Call) (j : Job) (w : Serve), v.job jid = some j → j.serve = some w →
    v.leads j = true → jid = c.par 0 2 →
    (∀ used, Takes (.expertLoad dt c) s v x →
      used = v.jobs.flatMap (fun e => (v.serve e.1).versions.flatMap (fun y => y.slots)) →
      v.srv j 0x64 4 ≤ ((List.range 256).filter (fun n => !used.contains n)).length →
      Answers (.expertLoad dt c) s fun t =>
        t = { v with jobs := t.jobs, cmds := t.cmds } ∧ OtherJobs jid v t ∧ x ∈ t.cmds ∧ ∃ slots,
          (t.serve jid).versions = w.versions ++ [{ set := c.par 2 1, version := SMap.getD 0 w.lastVersion (c.par 2 1) + 1,
                                                    slots := slots, weights := 32 * c.par 8 8 }] ∧
          slots.length = v.srv j 0x64 4 ∧ (∀ n, n ∈ slots → n < 256 ∧ ∀ k y, y ∈ (v.serve k).versions → n ∉ y.slots)) ∧
    (Takes (.expertRetire dt c) s v x → (∃ y, y ∈ w.versions ∧ y.set = c.par 2 1 ∧ y.version = c.par 4 2) →
      Answers (.expertRetire dt c) s fun t =>
        t = { v with jobs := t.jobs, cmds := t.cmds } ∧ OtherJobs jid v t ∧ Replied t v x false [] ∧
        (t.serve jid).versions = w.versions.map (fun y =>
          if y.set = c.par 2 1 ∧ y.version = c.par 4 2 then { y with retiring := true } else y))

/-- BUDGET_SET (R292, R293, R425): the masked fields of a tenant's counter change and no other; enabling gives it to the caller with a
fresh salt; clearing Enable clears every field; a counter of another partition is DENIED. -/
def Obligations.BudgetSet : Prop :=
  ∀ (s v : State) (x : Cmd) (dt ten : Nat) (c : Call) (b : Budget), Takes (.budgetSet dt c) s v x → ten = c.par 0 2 →
    b = v.budget ten →
    (b.enable = true → b.part ≠ c.pid → Answers (.budgetSet dt c) s fun t =>
      t = { v with cmds := t.cmds } ∧ RefusedWith t x 0x20 []) ∧
    (b.enable = false ∨ b.part = c.pid → bitOf (c.par 2 1) 3 = true → bitOf (c.par 3 1) 0 = false →
      Answers (.budgetSet dt c) s fun t =>
        t = { v with budgets := t.budgets, cmds := t.cmds } ∧ (∀ k, k ≠ ten → t.budget k = v.budget k) ∧ t.budget ten = {} ∧
        Replied t v x true ([0, 0, 0, 0] ++ wordsOf (t.budget ten).bytes)) ∧
    (b.enable = false ∨ b.part = c.pid → bitOf (c.par 2 1) 3 = false ∨ bitOf (c.par 3 1) 0 = true →
      Answers (.budgetSet dt c) s fun t =>
        t = { v with budgets := t.budgets, draws := t.draws, cmds := t.cmds } ∧ (∀ k, k ≠ ten → t.budget k = v.budget k) ∧
        (t.budget ten).balance = (if bitOf (c.par 2 1) 0 then sextNat 48 (c.par 8 8) else b.balance) ∧
        (t.budget ten).cap = (if bitOf (c.par 2 1) 1 then c.par 16 4 else b.cap) ∧
        (t.budget ten).rate = (if bitOf (c.par 2 1) 2 then c.par 20 4 else b.rate) ∧
        (t.budget ten).enable = (b.enable || bitOf (c.par 2 1) 3) ∧
        (t.budget ten).consent = (if bitOf (c.par 2 1) 4 then bitOf (c.par 3 1) 1 else b.consent) ∧
        (b.enable = true → (t.budget ten).part = b.part ∧ (t.budget ten).salt = b.salt) ∧
        (b.enable = false → bitOf (c.par 2 1) 3 = true → (t.budget ten).part = c.pid ∧
          (t.budget ten).salt = leBytes 32 (Config.random v.draws)) ∧
        Replied t v x true ([0, 0, 0, 0] ++ wordsOf (t.budget ten).bytes))

/-! ### Fabric, health, trust, quiesce (R42, R354, R358, R367, R382, R426, R448 to R454) -/

/-- FABRIC_DISCOVER, ROUTE_INSTALL and LINK_RETRAIN (R354, R358, R367): link records are written to the output area; routes and link
actions take effect at the next frame boundary, and are answered there: entries are written from the first on, and every link of the mask is
disabled, left DOWN, limited, or trained again where it may train. Which links train again is the model's reading (log 81). -/
def Obligations.FabricCommands : Prop :=
  (∀ w t n first entries id, t = applyAct w n (.routes first entries id) →
    t = { w with routes := t.routes, store := { w.store with routes := t.routes }, cmds := t.cmds } ∧
    (∀ i e, entries[i]? = some e → SMap.find t.routes (first + i) = some
      { valid := bitOf e 31, altValid := bitOf e 30, hops := bitsOf e 21 18, primary := bitsOf e 11 6, alternate := bitsOf e 5 0 }) ∧
    (∀ k, k < first ∨ first + entries.length ≤ k → SMap.find t.routes k = SMap.find w.routes k) ∧
    (∀ c, c ∈ w.cmds → c.waiting = true → c.id = id → { c with reply := some { status := 0, stamp := n } } ∈ t.cmds) ∧
    (∀ c, c ∈ w.cmds → c.id ≠ id → c ∈ t.cmds)) ∧
  (∀ w t n mask action limit id, t = applyAct w n (.links mask action limit id) →
    t = { w with links := t.links, jobs := t.jobs, plumb := t.plumb, cmds := t.cmds } ∧
    (∀ l, 64 ≤ l ∨ bitOf mask l = false → t.link l = w.link l) ∧
    (∀ l trains, l < 64 → bitOf mask l = true → trains = (mayTrain w l &&
        ((w.link l).up || (w.link l).state == .training || decide (2 ≤ laneCount (w.link l).signal))) →
      (action = 1 → (t.link l).state = .disabled ∧ (t.link l).sched = [] ∧ (t.link l).replay = []) ∧
      (action = 2 → (t.link l).state = .down ∧ (t.link l).sched = [] ∧ (t.link l).replay = []) ∧
      (action = 3 → (t.link l).limit = limit) ∧
      (action = 0 ∨ action = 3 → trains = true → (t.link l).state = .training ∧ (t.link l).since = w.now ∧ (t.link l).sched = [] ∧
        (t.link l).replay = []) ∧
      (action = 0 ∨ action = 3 → trains = false → (t.link l).state = (w.link l).state)) ∧
    (∀ c, c ∈ w.cmds → c.waiting = true → c.id = id → { c with reply := some { status := 0, stamp := n } } ∈ t.cmds) ∧
    (∀ c, c ∈ w.cmds → c.id ≠ id → c ∈ t.cmds)) ∧
  ∀ (s v : State) (x : Cmd) (dt : Nat) (c : Call),
    (Takes (.fabricDiscover dt c) s v x → Answers (.fabricDiscover dt c) s fun t =>
      t = { v with number := if bitOf (c.par 0 1) 0 then some (c.par 2 2) else v.number, wins := t.wins, cmds := t.cmds,
                   store := { v.store with localTime := if bitOf (c.par 0 1) 1 then bitOf (c.par 1 1) 0 else v.store.localTime } } ∧
      Replied t v x false [((List.range 64).filter (fun k => (v.link k).state == .active)).length] ∧
      (t.win c.win).area = Mem.write (v.win c.win).area (0x200000 + c.par 8 4) ((List.range 64).flatMap (fun k => (v.link k).bytes)) ∧
      (∀ w, w ≠ c.win → t.win w = v.win w)) ∧
    (Takes (.routeInstall dt c) s v x → Answers (.routeInstall dt c) s fun t =>
      t = { v with acts := t.acts, cmds := t.cmds } ∧ x ∈ t.cmds ∧
      (∀ a, a ∈ t.acts ↔ a ∈ v.acts ∨ a = (nextFrame v.now, .routes (leAt x.block 0 2)
        ((List.range (leAt x.block 2 2)).map (fun k => leAt x.block (32 + 4 * k) 4)) x.id))) ∧
    (∀ i k, (k, i) ∈ [(0, Instr.linkRetrain dt c), (1, .linkRetrainDisable dt c), (2, .linkRetrainEnable dt c),
        (3, .linkRetrainLimit dt c)] → Takes i s v x → c.par 8 1 = k →
      (bitOf c.flags 1 = true ∨ (∀ l, l < 64 → bitOf (c.par 0 8) l = true → linkInUse v l = false) → Answers i s fun t =>
        t = { v with acts := t.acts, cmds := t.cmds } ∧ x ∈ t.cmds ∧
        (∀ a, a ∈ t.acts ↔ a ∈ v.acts ∨ a = (nextFrame v.now, .links (c.par 0 8) k (c.par 9 1) x.id))) ∧
      (∀ l, bitOf c.flags 1 = false → l < 64 → bitOf (c.par 0 8) l = true → linkInUse v l = true → Answers i s fun t =>
        t = { v with cmds := t.cmds } ∧ RefusedWith t x 0x20 []))

/-- HEALTH_READ and RISK_SET_THRESHOLD (R382, R426): whole items from an index on, as many as fit; the selectors of the operator are
DENIED to a partition, which is the model's reading (log 70), and so are the index of the next item, its low word, and how the items of each
selector are numbered (log 54). -/
def Obligations.HealthCommands : Prop :=
  ∀ (s v : State) (x : Cmd) (dt : Nat) (c : Call),
    (∀ got, Takes (.healthRead dt c) s v x → c.win = 0 ∨ (4 < c.par 0 1 ∧ c.par 0 1 ≠ 11) →
      got = takeFit (c.par 8 4) (c.par 16 4) (healthItems v c) →
      Answers (.healthRead dt c) s fun t =>
        t = { v with wins := t.wins, cmds := t.cmds } ∧ (∀ w, w ≠ c.win → t.win w = v.win w) ∧
        (t.win c.win).area = Mem.write (v.win c.win).area (0x200000 + c.par 12 4) got.flatten ∧
        got.length ≤ c.par 8 4 ∧ got.flatten.length ≤ c.par 16 4 ∧ got <+: (healthItems v c).map (fun e => e.2) ∧
        (∀ next, next = (healthItems v c)[got.length]?.map (fun e => e.1 % 2 ^ 32) →
          { x with reply := some { status := 0, stamp := nextFrame v.now, more := next.isSome,
                                   words := [got.length, next.getD (2 ^ 32 - 1), got.flatten.length] } } ∈ t.cmds)) ∧
    (Takes (.healthRead dt c) s v x → c.win ≠ 0 → c.par 0 1 ≤ 4 ∨ c.par 0 1 = 11 → Answers (.healthRead dt c) s fun t =>
      t = { v with cmds := t.cmds } ∧ RefusedWith t x 0x20 []) ∧
    (Takes (.riskSetThreshold dt c) s v x → Answers (.riskSetThreshold dt c) s fun t =>
      t = { v with health := { v.health with threshold := c.par 0 1, holdOff := c.par 4 4 }, cmds := t.cmds } ∧
      Replied t v x false [])

/-- ATTEST_QUOTE (R449): the quote is written to the output area, signed by the identity key over its header; its header carries the
challenge, and the digest of all its sections. The code that a section shows for a job fenced by a withdrawal is the model's reading (log
63). -/
def Obligations.Quote : Prop :=
  ∀ (s v : State) (x : Cmd) (dt : Nat) (c : Call) (secs head : List Byte), Takes (.attestQuote dt c) s v x →
    secs = (quotedParts v c).flatMap (quoteSection v) → head = quoteHeader v x secs →
    Answers (.attestQuote dt c) s fun t =>
      t = { v with wins := t.wins, draws := v.draws + 1, cmds := t.cmds } ∧ (∀ w, w ≠ c.win → t.win w = v.win w) ∧
      slice head 16 32 = slice c.params 0 32 ∧ slice head 0xE0 32 = sha256 secs ∧ head.length = 0x100 ∧
      (t.win c.win).area = Mem.write (v.win c.win).area (0x200000 + c.par 32 4)
        (head ++ secs ++ ecdsaSign Config.identityKey v.scalar.1 (sha256 head)) ∧
      Replied t v x false [(head ++ secs ++ ecdsaSign Config.identityKey v.scalar.1 (sha256 head)).length]

/-- KEY_INSTALL, kinds 0 to 2 (R448, R450): a key takes its index, or leaves it; an access entry is set, or emptied by a zero mask, for
the connections made from the tick on at which the reply is posted. -/
def Obligations.KeysInstalled : Prop :=
  ∀ (s v : State) (x : Cmd) (dt : Nat) (c : Call),
    (Takes (.installImageKey dt c) s v x → leAt x.block 0 1 = 0 → Answers (.installImageKey dt c) s fun t =>
      t = { v with store := { v.store with keys := t.store.keys }, cmds := t.cmds } ∧ Replied t v x false [] ∧
      ∀ k, SMap.find t.store.keys k =
        if k = keySlot c.win (leAt x.block 1 1) then some (slice x.block 0x20 64) else SMap.find v.store.keys k) ∧
    (Takes (.removeImageKey dt c) s v x → leAt x.block 0 1 = 1 → Answers (.removeImageKey dt c) s fun t =>
      t = { v with store := { v.store with keys := t.store.keys }, cmds := t.cmds } ∧ Replied t v x false [] ∧
      ∀ k, SMap.find t.store.keys k = if k = keySlot c.win (leAt x.block 1 1) then none else SMap.find v.store.keys k) ∧
    (Takes (.setAccessEntry dt c) s v x → leAt x.block 0 1 = 2 → Answers (.setAccessEntry dt c) s fun t =>
      t = { v with acts := t.acts, cmds := t.cmds } ∧ Replied t v x false [] ∧
      (∀ a, a ∈ t.acts ↔ a ∈ v.acts ∨
        a = (v.now + 1048576, .access (leAt x.block 1 1) (leAt x.block 4 2) (slice x.block 0x20 64)))) ∧
    (∀ w t n idx mask key, t = applyAct w n (.access idx mask key) →
      t = { w with store := { w.store with access := t.store.access } } ∧
      ∀ k, SMap.find t.store.access k =
        if k ≠ idx then SMap.find w.store.access k else if mask = 0 then none else some { mask := mask, key := key })

/-- KEY_INSTALL, kinds 3 and 4 (R450 to R452): a partition's key pair is wrapped for the module whose signed quote is given, 320 bytes
in the output area; a wrapped pair for this module replaces the keys of a partition without jobs; anything else is DENIED. That a product that is
the point at infinity is DENIED is the model's reading (log 71). -/
def Obligations.KeyPairs : Prop :=
  ∀ (s v : State) (x : Cmd) (dt : Nat) (c : Call),
    (Takes (.exportKeyPair dt c) s v x → leAt x.block 0 1 = 3 →
      signatureOk (slice (slice x.block 0x20 256) 0x40 64) (slice x.block 0x20 256) (slice x.block 0x120 64) = true →
      onCurve (keyPoint (slice (slice x.block 0x20 256) 0x80 64)) = true →
      Answers (.exportKeyPair dt c) s fun t =>
        (∀ q, pointMul v.scalar.1 (keyPoint (slice (slice x.block 0x20 256) 0x80 64)) = some q →
          t = { v with wins := t.wins, draws := v.draws + 3, cmds := t.cmds } ∧ (∀ w, w ≠ c.win → t.win w = v.win w) ∧
          Replied t v x false [320] ∧
          (t.win c.win).area = Mem.write (v.win c.win).area (0x200000 + leAt x.block 8 4)
            (wrappedRecord { v with draws := v.draws + 2 } (leAt (slice x.block 0x20 256) 8 8) v.scalar.1
              ((leBytes 32 (Config.random (v.draws + 1))).take 12) q.1 (v.part c.pid).keys).1) ∧
        (pointMul v.scalar.1 (keyPoint (slice (slice x.block 0x20 256) 0x80 64)) = none →
          t = { v with cmds := t.cmds } ∧ RefusedWith t x 0x20 [])) ∧
    (Takes (.exportKeyPair dt c) s v x → leAt x.block 0 1 = 3 →
      signatureOk (slice (slice x.block 0x20 256) 0x40 64) (slice x.block 0x20 256) (slice x.block 0x120 64) = false →
      Answers (.exportKeyPair dt c) s fun t => t = { v with cmds := t.cmds } ∧ RefusedWith t x 0x20 []) ∧
    (Takes (.importKeyPair dt c) s v x → leAt x.block 0 1 = 4 → v.jobsOf c.pid = [] →
      Answers (.importKeyPair dt c) s fun t =>
        (∀ pair, unwrapKeys v (slice x.block 0x20 320) = some pair →
          t = { v with parts := t.parts, cmds := t.cmds } ∧ t.part c.pid = { v.part c.pid with keys := pair } ∧
          (∀ q, q ≠ c.pid → t.part q = v.part q) ∧ Replied t v x false []) ∧
        (unwrapKeys v (slice x.block 0x20 320) = none → t = { v with cmds := t.cmds } ∧ RefusedWith t x 0x20 [])) ∧
    (Takes (.importKeyPair dt c) s v x → leAt x.block 0 1 = 4 → v.jobsOf c.pid ≠ [] →
      Answers (.importKeyPair dt c) s fun t => t = { v with cmds := t.cmds } ∧ RefusedWith t x 0x20 [])

/-- SERVICE_QUIESCE (R453, R454): an orderly one withdraws every job from the next frame on, an emergency one fences the data plane at the next
frame boundary; both are answered when the module is quiesced, and a quiesced module answers at once. -/
def Obligations.QuiesceCommands : Prop :=
  (∀ w t n, t = applyAct w n .emergency → EmergencyFence w t) ∧ (∀ w n, applyAct w n .quiescing = { w with quiescing := true }) ∧
  ∀ (s v : State) (x : Cmd) (dt : Nat) (c : Call),
    (Takes (.orderlyQuiesce dt c) s v x → c.par 0 1 = 0 → v.quiesce = .none → Answers (.orderlyQuiesce dt c) s fun t =>
      t.quiesce = .orderly ∧ (nextFrame v.now, .quiescing) ∈ t.acts ∧ (∀ k j, t.job k = some j → j.stop.isSome = true) ∧
      (v.jobs = [] → t = { v with quiesce := .orderly, acts := t.acts, cmds := t.cmds } ∧ x ∈ t.cmds)) ∧
    (Takes (.emergencyQuiesce dt c) s v x → c.par 0 1 = 1 → v.quiesce = .none ∨ v.quiesce = .orderly →
      Answers (.emergencyQuiesce dt c) s fun t =>
        t = { v with quiesce := .emergency, acts := t.acts, cmds := t.cmds } ∧ x ∈ t.cmds ∧
        (∀ a, a ∈ t.acts ↔ a ∈ v.acts ∨ a = (nextFrame v.now, .emergency))) ∧
    (∀ i, (i = .orderlyQuiesce dt c ∨ i = .emergencyQuiesce dt c) → Takes i s v x → v.quiesce = .done → Answers i s fun t =>
      t = { v with cmds := t.cmds } ∧ Replied t v x false [])

/-! ### The life of a step (R63, R74, R82 to R84, R233, R236, R394) -/

/-- A step begins at its due stamp (R63, R68, R233), takes its beats (R74, R236, R266), and ends at its last cycle (R63, R394).
A beat kept back by an earlier fault raises BARRIER_LATE by the model's reading (log 28); what landed is an operand (log 25). -/
def Obligations.StepLife : Prop :=
  ∀ (s u v : State) (dt jid : Nat) (j : Job), u = s.after dt → v.job jid = some j →
    (∀ ws t0 j0, u.job jid = some j0 → j0.nextAt = some t0 → u.now ≤ t0 → (u.settle t0).job jid = some j →
      stepReady (u.settle t0) jid j = true → j.nextAt = some t0 → v = u.upto t0 →
      Answers (.stepStart dt jid ws) s fun t =>
        t = { v with jobs := t.jobs, tiles := t.tiles } ∧ OtherJobs jid v t ∧
        (∃ y r, t.job jid = some y ∧ y.run = some r ∧ r.number = j.nextStep ∧ r.start = v.now ∧ r.frames = stepFrames v j r.cls ∧
          r.count0 = j.u ∧ r.selector0 = j.selector ∧ y.attempt = j.attempt + 1 ∧ y.u = j.u ∧ y.nextAt = none ∧ y.sync = []) ∧
        (∀ b, b ∈ j.binding → (t.tile b.2).job = some jid ∧ (t.tile b.2).score = [] ∧ (t.tile b.2).sum = {})) ∧
    (∀ obj r d c n bad, (u.job jid).bind (fun x => beatAt u x obj) = some c → v = u.upto c → (u.job jid).bind u.commitObject ≠ some obj →
      j.live = some r → (syncDecls (v.jobSection j 7))[obj]? = some d → n = SMap.getD ({} : SyncObj) j.sync obj →
      bad = (if d.counter then n.count != d.expected else !beatFires v r d n) →
      Answers (.syncBeat dt jid obj) s fun t =>
        t = { v with jobs := t.jobs, draws := t.draws, tier2 := t.tier2 } ∧ OtherJobs jid v t ∧ ∃ y, t.job jid = some y ∧
        y.sync = SMap.set j.sync obj { n with beaten := true, fired := beatFires v r d n } ∧
        (bad = false → y.run = j.run) ∧
        (bad = true → ∃ x f, y.run = some x ∧ f ∈ x.faults ∧ f.stamp = v.now ∧
          f.step = r.number ∧ f.object = obj ∧ f.code = (if d.counter then 0x07 else 0x06))) ∧
    (∀ obj r d c, (u.job jid).bind u.commitObject = some obj → (u.job jid).bind (fun x => beatAt u x obj) = some c → v = u.upto c →
      j.live = some r → j.replayRun = none → (syncDecls (v.jobSection j 7))[obj]? = some d →
      Answers (.commitBeat dt jid) s fun t =>
        t = { v with jobs := t.jobs } ∧ OtherJobs jid v t ∧ ∃ y, t.job jid = some y ∧
        (beatFires v r d (SMap.getD {} j.sync obj) = false → y.u = j.u ∧ y.selector = j.selector ∧ y.beats = j.beats) ∧
        (beatFires v r d (SMap.getD {} j.sync obj) = true → y.beats = j.beats + 1 ∧
          (r.update = false → y.u = j.u ∧ y.selector = j.selector) ∧
          (r.update = true → j.applyNan = true ∨ j.nanSum + nanTotal r.words = 0 →
            y.u = j.u + 1 ∧ y.selector = !j.selector ∧ y.skipped = j.skipped) ∧
          (r.update = true → j.applyNan = false → j.nanSum + nanTotal r.words ≠ 0 →
            y.u = j.u ∧ y.selector = j.selector ∧ y.skipped = j.skipped + 1))) ∧
    (∀ outs c r r0, (u.job jid).bind (fun x => x.live) = some r0 → r0.stop = c + 1 → u.now ≤ c →
      ((u.settle c).job jid).bind (fun x => x.live) = some r0 → r0.faults = [] → v = (u.settle c).through c →
      j.live = some r → r.stop = c + 1 → r.faults = [] → beatsTaken v j r = true → j.replayRun = none → j.stop = none →
      Answers (.stepEnd dt jid outs) s fun t => t.now = max v.now (c + 1) ∧ t.tiles = v.tiles ∧ (j.serve = none → t.tier1 = v.tier1) ∧
        ∃ y x, OtherJobsBut jid x.size (fun b => j.serve.isSome && v.onePool j b) v t ∧ t.job jid = some y ∧ y.run = none ∧
        y.nextStep = r.number + 1 ∧
        y.records = v.staying x.size j.records ++ [x] ∧ x.step = r.number ∧
        x.outcome = 0 ∧
        (j.serve = none → j.mode = .running → j.pauseAsk = none → j.leaving = none → j.resting = false → y.nextAt = some (c + 1)))

/-- Faults and abandonment (R82 to R84): a notice joins the list of the step it names; at the abandon boundary the step is given
up without commit; when its list closes its record takes the whole list. Where a partner's notice is filed is the model's
reading (log 86), and so is that a test job, which R84 does not name, is PAUSED as the kinds that do not serve are (log 107). -/
def Obligations.Abandonment : Prop :=
  ∀ (s u v : State) (dt jid : Nat) (j : Job), u = s.after dt →
    (∀ record f, f = faultFrom record → Answers (.faultNotice dt record) s fun t =>
      t = { u with jobs := t.jobs } ∧
      (∀ k x r, u.job k = some x → x.run = some r → r.listClosed = false → recordFor u f x r = true →
        t.job k = some { x with run := some { r with faults := addFault r.faults f } }) ∧
      (∀ k x, u.job k = some x → (∀ r, x.run = some r → recordFor u f x r = false) →
        (∀ c, x.closing = some c → recordFor u f x c = false) → t.job k = some x)) ∧
    (∀ b r0 r j0 n outs, (u.job jid).bind (fun x => x.live.bind (fun y => y.boundary x.notice)) = some b → u.now ≤ b →
      (u.settle b).job jid = some j0 → j0.live = some r0 → r0.boundary j0.notice = some b → (u.settle b).now ≤ b →
      v = closeFaults ((u.settle b).reach b) jid b → v.job jid = some j → j.live = some r → j.stop = none → n = v.now →
      Answers (.stepAbandon dt { job := jid, outs := outs }) s fun t => t.now = n ∧ t.tier1 = v.tier1 ∧
        (∀ o, o ∈ t.inflight ↔ o ∈ v.inflight ∧ o.dies jid = false) ∧
        ∃ y x, OtherJobsBut jid x.size (fun _ => false) v t ∧ t.job jid = some y ∧ y.run = none ∧ y.sync = [] ∧ y.closing = some { r with abandoned := true } ∧ y.voided = true ∧
        y.u = j.u ∧ y.selector = j.selector ∧ y.records = v.staying x.size j.records ++ [x] ∧ x.step = r.number ∧ x.outcome = 1 ∧
        (serves j.kind = false ∨ j.replayRun.isSome = true → y.mode = .paused ∧ y.nextAt = none ∧ y.nextStep = j.nextStep) ∧
        (serves j.kind = true → j.replayRun = none → y.nextStep = j.nextStep + 1)) ∧
    (∀ c b j0, u.job jid = some j0 → j0.closing.bind (fun x => x.boundary j0.notice) = some b → v = u.upto (b + j0.notice) →
      v.job jid = some j → j.closing = some c →
      Answers (.faultListClose dt jid) s fun t =>
        t = { v with jobs := t.jobs, cmds := t.cmds } ∧ OtherJobs jid v t ∧
        (∃ y, t.job jid = some y ∧ y = { j with closing := none, records := y.records } ∧ y.records.length = j.records.length ∧
          ∀ x, x ∈ j.records → x.step ≠ c.number ∨ x.outcome ≠ 1 → x ∈ y.records) ∧
        (∀ f rest k, c.faults = f :: rest → j.mode = .paused → k ∈ v.cmds → k.waiting = true →
          k.works 0x0301 jid = true ∨ k.works 0x0303 jid = true →
          { k with reply := some (faultReply (b + j0.notice) f) } ∈ t.cmds))

/-! ### The homes of the gradient reduction (R249, R257, R260 to R266) -/

/-- Packets at their home, the close of a bucket, its close word (R249, R257, R260 to R263, R266). At a close, g of every element is written
to the set that the commit to come commits, and every accumulator reads zero under the current tag. That a home's accesses need no more than
a grant that has slots is the model's reading (log 96). -/
def Obligations.ScreedHomes : Prop :=
  ∀ (s u v : State) (dt jid : Nat) (j : Job), u = s.after dt →
    (∀ die w p c, w.errors = [] → p = packetFrom w.bytes → c = 4 * die + p.controller →
      (SMap.find (u.ctl c).own p.job = none → (∀ x, u.job p.job = some x → x.replayRun = none) →
        Answers (.screedPacketArrival dt die w) s fun t =>
          t.ctl c = { u.ctl c with foreign := (u.ctl c).foreign + 1 } ∧ (∀ d, d ≠ c → t.ctl d = u.ctl d) ∧
          t = { u with ctls := t.ctls, jobs := t.jobs } ∧ OtherJobs p.job u t) ∧
      (∀ own r b a, SMap.find (u.ctl c).own p.job = some own → u.job p.job = some j → j.replayRun = none → j.live = some r →
        u.bucketEntry j p.bucket = some b → b.homed = true → b.die = die → b.ctl = p.controller → own.base * 2 ^ 20 ≤ 32 * b.acc →
        32 * b.acc + 8 * b.elements ≤ (own.base + own.length) * 2 ^ 20 → (∀ x, x ∈ p.vals → x.1 < b.elements) →
        accAddr u j b = some a → r.forced = [] → (SMap.getD ({} : BucketRun) r.homes p.bucket).closed = false →
        (∀ n, closeBeat r b = some n → u.now ≤ n) →
        (p.attempt = j.tag → j.voided = false → homeSlots u own.part = true → Answers (.screedPacketArrival dt die w) s fun t =>
          t = { u with tier1 := t.tier1, jobs := t.jobs } ∧ OtherJobs p.job u t ∧ t.tier1 = (addValues u die a j.tag p.vals).tier1 ∧
          ∃ y x, t.job p.job = some y ∧ y.run = some x ∧ x.red.accepted = r.red.accepted + 1 ∧
          SMap.getD {} x.homes p.bucket = (SMap.getD ({} : BucketRun) r.homes p.bucket).take p false) ∧
        (p.attempt ≠ j.tag → Answers (.screedPacketArrival dt die w) s fun t =>
          t = { u with jobs := t.jobs } ∧ OtherJobs p.job u t ∧ ∃ y x, t.job p.job = some y ∧ y.run = some x ∧
          x.red.dropped = r.red.dropped + 1 ∧ x.fates = r.fates ++ [fateOf p 5]))) ∧
    (∀ bucket r b n a, u.job jid = some j → j.live = some r → u.bucketEntry j bucket = some b → b.homed = true →
      closeBeat r b = some n → u.now ≤ n → (SMap.getD ({} : BucketRun) r.homes bucket).closed = false →
      v = (u.settle n).through n → v.job jid = some j → v.bucketEntry j bucket = some b → accAddr v j b = some a →
      (∀ e q, SMap.find v.ctls e = some q → ∀ p, p ∈ q.carry → p.job ≠ jid ∨ p.bucket ≠ bucket) →
      Answers (.bucketClose dt jid { bucket := bucket, errors := [] }) s fun t => t.now = v.now ∧ OtherJobs jid v t ∧ t.wins = v.wins ∧
        (∀ k, (t.ctl k).carry = (v.ctl k).carry) ∧
        ∃ y x, t.job jid = some y ∧ y.run = some x ∧ (SMap.getD ({} : BucketRun) x.homes bucket).closed = true ∧
        x.red.closes = r.red.closes + 1 ∧ x.fates = r.fates ∧
        (∀ h e area, h = SMap.getD ({} : BucketRun) r.homes bucket → h.exponent = some e → homeSlots v j.part = true →
          area = v.readDie b.die false [] a (8 * b.elements) →
          t.tier1 = (v.writeDie b.die false [] a ((List.range b.elements).flatMap (fun _ => accBytes j.tag 0))).tier1 ∧
          (∀ g, gradAddr v j b r.update = some g → (v.part j.part).grant2 ≠ 0 → j.replayRun = none →
            t.tier2 = (v.writeDie b.die true (v.part j.part).keys g ((List.range b.elements).flatMap (fun n =>
              leBytes 4 (if isInf (drainFp32 (accValue j.tag (leAt area (8 * n) 8)) (e + b.adjust)).bits then 0
                else (drainFp32 (accValue j.tag (leAt area (8 * n) 8)) (e + b.adjust)).bits.toNat)))).tier2) ∧
          SMap.getD {} x.homes bucket = { h with nan := h.nan + (closeValues j.tag e b.adjust area b.elements).2.1, closed := true,
                                                 peak := peakOf (closeValues j.tag e b.adjust area b.elements).1 e })) ∧
    (∀ bucket r b h n, u.job jid = some j → j.live = some r → u.bucketEntry j bucket = some b → n = r.start + b.settle →
      h = SMap.getD ({} : BucketRun) r.homes bucket → h.closed = true → h.sent = false → u.now ≤ n → v = u.upto n →
      v.job jid = some j →
      Answers (.closeWordSend dt jid bucket) s fun t =>
        t = { v with jobs := t.jobs } ∧ OtherJobs jid v t ∧ ∃ y x, t.job jid = some y ∧ y.run = some x ∧
        SMap.find x.sentWords bucket = some (closeWordOf r.number bucket h).bytes ∧ SMap.getD {} x.homes bucket = { h with sent := true }) ∧
    (∀ bucket word sent r w obj d, u.job jid = some j → j.live = some r →
      ((u.bucketEntry j bucket).any (fun b => b.homed) = true → SMap.find r.sentWords bucket = some sent ∧
        ∀ x, x ∈ r.words → x.bucket ≠ bucket ∨ x.step ≠ r.number) →
      w = closeWordFrom bucket (if (u.bucketEntry j bucket).any (fun b => b.homed) then sent else word) →
      obj = leAt (u.jobConstant j 3) 0x20 4 → (syncDecls (u.jobSection j 7))[obj]? = some d →
      (SMap.getD ({} : SyncObj) j.sync obj).beaten = false → (w.step ≠ r.number → w.step ∉ j.givenUp) →
      Answers (.closeWordArrival dt jid bucket word) s fun t =>
        t = { u with tiles := t.tiles, jobs := t.jobs } ∧ OtherJobs jid u t ∧ ∃ y x, t.job jid = some y ∧ y.run = some x ∧
        x.words = (if wordCounts j r w then r.words.filter (fun z => !(z.bucket == w.bucket && z.step == w.step)) ++ [w] else r.words) ∧
        (SMap.getD ({} : SyncObj) y.sync obj).count = (SMap.getD ({} : SyncObj) j.sync obj).count + 1)

/-! ### The Lath links (R29, R342 to R369, R469) -/

/-- Training (R350, R351, R365 to R367, R469): each attempt, rung and loss, and the plugs. At the frame boundary after its signal is lost a
link is DOWN, and carries nothing. What a retrain or an unplugged link does where no rule says is the model's reading (logs 80 and 81). -/
def Obligations.LinkTraining : Prop :=
  (∀ w t n link, t = applyAct w n (.linkDown link) →
    ((w.link link).state = .disabled → t = w) ∧
    ((w.link link).state ≠ .disabled →
      t = { w with links := t.links, jobs := t.jobs, plumb := t.plumb } ∧ (∀ k, k ≠ link → t.link k = w.link k) ∧
      (t.link link).state = .down ∧ (t.link link).signal = 0 ∧ (t.link link).sched = [] ∧ (t.link link).replay = [] ∧
      (w.plumb.source = link → w.plumb.state = .locked → (w.link link).up = true → t.plumb.losing = true))) ∧
  ∀ (s u : State) (dt link : Nat) (l : Link), u = s.after dt → l = u.link link →
    (∀ lanes, l.state = .down → l.ladderFailed = false → 2 ≤ laneCount lanes → mayTrain u link = true →
      Answers (.linkSignalDetect dt link lanes) s fun t =>
        t = { u with links := t.links } ∧ (∀ k, k ≠ link → t.link k = u.link k) ∧ (t.link link).state = .training ∧
        (t.link link).signal = lanes % 16 ∧ (t.link link).since = u.now ∧ (t.link link).waiting = false) ∧
    (∀ r, l.state = .training → l.waiting = false → mayTrain u link = true → u.now ≤ l.since + second / 2 → Answers (.trainingComplete dt link r) s fun t =>
      t = { u with links := t.links, log := t.log } ∧ (∀ k, k ≠ link → t.link k = u.link k) ∧
      (t.link link).state = .hello ∧ (t.link link).delay = r.delay ∧
      (t.link link).rung = commonRung l r.rung ∧
      ((t.link link).width, (t.link link).rate112, (t.link link).lanes) = rungWidth l (commonRung l r.rung) ∧
      (t.link link).timeClass = classOf u.plumb.state (plumbOf r.state) (frameAgrees r.delay
        { frame := r.frame, hop := r.hop, state := plumbOf r.state, deadline := 0, at_ := u.now })) ∧
    (∀ lanes n x v, l.state = .training → l.waiting = false → n = l.since + second / 2 → u.now ≤ n → v = u.upto n →
      x = { v.link link with excluded := (v.link link).excluded ||| lanes % 16, since := v.now } →
      Answers (.trainingAttemptFail dt link lanes) s fun t =>
        t = { v with links := t.links } ∧ (∀ k, k ≠ link → t.link k = v.link k) ∧
        (∀ r, nextRung x (x.rung + 1) = some r → t.link link = { x with rung := r, waiting := true }) ∧
        (nextRung x (x.rung + 1) = none → t.link link = { x with state := .down, ladderFailed := true })) ∧
    (∀ n v, l.state = .training → l.waiting = true → mayTrain u link = true → n = l.since + second → u.now ≤ n → v = u.upto n →
      Answers (.trainingRungRetry dt link) s fun t =>
        t = { v with links := t.links } ∧ (∀ k, k ≠ link → t.link k = v.link k) ∧
        t.link link = { v.link link with waiting := false, since := v.now }) ∧
    (∀ n v, l.state = .down → l.ladderFailed = true → mayTrain u link = true → 2 ≤ laneCount l.signal → n = l.since + 10 * second → u.now ≤ n → v = u.upto n →
      Answers (.trainingLadderRestart dt link) s fun t =>
        t = { v with links := t.links } ∧ (∀ k, k ≠ link → t.link k = v.link k) ∧ (t.link link).state = .training ∧
        (t.link link).ladderFailed = false ∧ (t.link link).excluded = 0 ∧ (t.link link).since = v.now) ∧
    (l.state ≠ .disabled → Answers (.linkSignalLoss dt link) s fun t =>
      t = { u with links := t.links, acts := t.acts } ∧ (∀ k, k ≠ link → t.link k = u.link k) ∧ t.link link = { l with noSignal := true } ∧
      (∀ a, a ∈ t.acts ↔ a ∈ u.acts ∨ a = (nextFrame u.now, .linkDown link))) ∧
    (l.state = .disabled → Answers (.linkSignalLoss dt link) s fun t =>
      t = { u with links := t.links } ∧ (∀ k, k ≠ link → t.link k = u.link k) ∧ t.link link = { l with signal := 0 }) ∧
    (l.up = true → mayTrain u link = true → Answers (.partnerRetrain dt link) s fun t =>
      t = { u with links := t.links, jobs := t.jobs, plumb := t.plumb } ∧ (∀ k, k ≠ link → t.link k = u.link k) ∧
      (t.link link).state = .training ∧ (t.link link).replay = [] ∧ (t.link link).sched = [] ∧
      (u.plumb.source = link → u.plumb.state = .locked → t.plumb.losing = true)) ∧
    (∀ cage tenths, cage < 16 → Answers (.plugPresent dt cage tenths) s fun t =>
      t = { u with links := t.links, jobs := t.jobs, plumb := t.plumb } ∧
      (∀ k, k / 4 ≠ cage → t.link k = u.link k) ∧
      (tenths ≤ 60 → t = { u with links := t.links } ∧
        ∀ k, k / 4 = cage → t.link k = { u.link k with plugPower := some tenths, plugPowered := true }) ∧
      (60 < tenths → ∀ k, k / 4 = cage → (t.link k).plugPower = some tenths ∧ (t.link k).plugPowered = false ∧
        (t.link k).state = if (u.link k).state = .disabled then .disabled else .down))

/-- What a link sends (R29, R344 to R346): at an ordinary send point of an ACTIVE link its oldest scheduled flit, or else an
idle flit, with Ack; at the timing point the number of the frame to come; a flit whose Ack is missing is sent again three times,
then lost. What an Ack covers after a resend is the model's reading (log 82). -/
def Obligations.FlitsSent : Prop :=
  ∀ (s u : State) (dt link : Nat) (l : Link), u = s.after dt → l = u.link link →
    (l.up = true → l.state = .active → isPoint l.width u.now = true → isTimingPoint u.now = false → u.now % 1024 ≠ 0 →
      (∀ q, l.scheduled = true → l.room = true → nextScheduled l u.now = some q → q.flit.type = 1 →
        q.flit.last = false ∨ u.now ≤ q.point ∨ (u.part q.part).pooled = false →
        Answers (.sendPoint dt link) s fun t =>
          t = { u with links := t.links } ∧ (∀ k, k ≠ link → t.link k = u.link k) ∧ (t.link link).sched = l.sched.erase q ∧
          (t.link link).out = some { q.flit with ack := l.ackNow, nakValid := !l.rxOwed.isEmpty, nak := l.rxOwed.headD 0,
                                                 seq := l.txSeq } ∧
          (t.link link).txSeq = (l.txSeq + 1) % 4096 ∧ (t.link link).replay.length = l.replay.length + 1) ∧
      (l.sched = [] → l.lossQ = [] → l.best = [] → (∀ x, x ∈ l.replay → x.due = false) →
        Answers (.sendPoint dt link) s fun t =>
          t = { u with links := t.links } ∧ (∀ k, k ≠ link → t.link k = u.link k) ∧
          ∀ f, f = { ack := l.ackNow, nakValid := !l.rxOwed.isEmpty, nak := l.rxOwed.headD 0 : Flit } →
            t.link link = { l with rxOwed := l.rxOwed.drop 1, out := some f })) ∧
    (isPoint l.width u.now = false → exec (.sendPoint dt link) s = .next u) ∧
    (∀ n v, l.state = .active → n = frameOf u.now * 65536 + 65472 → u.now ≤ n → v = u.upto n → v.plumb.hop < 16 →
      Answers (.timingFlitSend dt link) s fun t =>
        t = { v with links := t.links } ∧ (∀ k, k ≠ link → t.link k = v.link k) ∧ ∃ f, (t.link link).out = some f ∧ f.type = 4 ∧
        f.seq = 0 ∧ leAt f.payload 0 6 = (frameOf v.now + 1) % 2 ^ 48 ∧ bitsOf (leAt f.payload 6 1) 6 4 = v.plumb.state.code) ∧
    (∀ seq x, l.replay.find? (fun y => y.flit.seq == seq) = some x → x.due = false → x.sentAt + 2 * l.delay + 256 ≤ u.now →
      Answers (.resendTimeout dt link seq) s fun t =>
        t = { u with links := t.links } ∧ (∀ k, k ≠ link → t.link k = u.link k) ∧
        (x.resends < 3 → t.link link = { l with replay := l.replay.map (fun y => if y.flit.seq = seq then { y with due := true } else y) }) ∧
        (3 ≤ x.resends → (∀ y, y ∈ (t.link link).replay ↔ y ∈ l.replay ∧ y.flit.seq ≠ seq) ∧
          (t.link link).lost = satNat 8 (l.lost + 1) ∧ (t.link link).lostAt = some u.now ∧
          (x.flit.type = 1 → (t.link link).lossQ = l.lossQ ++
            [{ type := 6, job := x.flit.job, dest := x.flit.dest, word := x.flit.word, last := true }])))

/-- What a link receives (R342, R345 to R348, R353, R359): each flit's Ack and sequence number are taken, and a flit that is new
acts by its type; one that came before acts no more; one that fails its check is counted. That a flit comes before what falls
due at its own cycle is the model's reading (log 83). -/
def Obligations.FlitsReceived : Prop :=
  ∀ (s u : State) (dt link : Nat) (f : Flit) (l : Link), u = s.upon dt → l = u.link link →
    (∀ i n, (n, i) ∈ [(0, Instr.idleFlit dt link f), (1, .scheduledFlit dt link f), (2, .bestEffortFlit dt link f), (3, .noticeFlit dt link f),
        (5, .helloFlit dt link f), (6, .lossFlit dt link f), (7, .syncFlit dt link f)] → f.type = n →
      (l.up = false → exec i s = .next u) ∧
      (l.state = .active → n ≠ 0 → f.seq < 4096 → 2048 ≤ seqAhead l.rxNext f.seq → f.seq ∉ l.rxMissing → NoDuplicates u →
        Answers i s fun t => t = { u with links := t.links } ∧ (∀ k, k ≠ link → t.link k = u.link k) ∧ t.link link = takeAck l f u.now)) ∧
    (l.state = .active → NoDuplicates u → f.seq = l.rxNext → l.rxNext < 4096 →
      (f.type = 0 → Answers (.idleFlit dt link f) s fun t =>
        t = { u with links := t.links } ∧ (∀ k, k ≠ link → t.link k = u.link k) ∧ t.link link = takeAck l f u.now) ∧
      (∀ a x r w tile, f.type = 1 → l.timeClass = .common → a = addrParts f.dest → a.1 = u.moduleNumber → a.2.1 ≤ 4 → a.2.2 ≤ 11 →
        u.job f.job = some x → x.resident = true → x.tileOf (12 * a.2.1 + a.2.2) = some tile → (u.tile tile).job = some f.job →
        x.run = some r →
        r.recvs = [w] → w.unit = 7 → w.entry = f.word / 1024 → w.done = false → u.now ≤ w.delivery →
        Answers (.scheduledFlit dt link f) s fun t =>
          t = { u with links := t.links, jobs := t.jobs } ∧ (t.link link).rxNext = (f.seq + 1) % 4096 ∧ OtherJobs f.job u t ∧
          t.job f.job = some { x with run := some { r with recvs := [{ w with got := SMap.set w.got (f.word % 1024) f.payload }] } }) ∧
      (f.type = 1 → l.timeClass = .common → (addrParts f.dest).1 ≠ u.moduleNumber → Answers (.scheduledFlit dt link f) s fun t =>
        t = { u with links := t.links } ∧ (∀ k, k ≠ link → t.link k = u.link k) ∧
        t.link link = { takeAck l f u.now with rxNext := (f.seq + 1) % 4096, misaddressed := satNat 8 (l.misaddressed + 1) }) ∧
      (∀ a x r w tile, f.type = 6 → l.timeClass = .common → a = addrParts f.dest → a.1 = u.moduleNumber → a.2.1 ≤ 4 → a.2.2 ≤ 11 →
        u.job f.job = some x → x.resident = true → x.tileOf (12 * a.2.1 + a.2.2) = some tile → (u.tile tile).job = some f.job →
        x.run = some r →
        r.recvs = [w] → w.unit = 7 → w.entry = f.word / 1024 → w.done = false → u.now ≤ w.delivery →
        Answers (.lossFlit dt link f) s fun t =>
          t = { u with links := t.links, jobs := t.jobs } ∧ (t.link link).rxNext = (f.seq + 1) % 4096 ∧ OtherJobs f.job u t ∧
          t.job f.job = some { x with run := some { r with recvs := [{ w with lossSeen := true }] } }) ∧
      (f.type = 2 → f.dest = hubAddr u.moduleNumber → u.moduleNumber < 1024 → Answers (.bestEffortFlit dt link f) s fun t =>
        t = { u with links := t.links, inbox := u.inbox ++ [f] } ∧ (t.link link).rxNext = (f.seq + 1) % 4096 ∧
        ∀ k, k ≠ link → t.link k = u.link k) ∧
      (f.type = 3 → bitsOf f.dest 6 0 ≠ 127 → Answers (.noticeFlit dt link f) s fun t =>
        t = { u with links := t.links } ∧ (∀ k, k ≠ link → t.link k = u.link k) ∧
        t.link link = { takeAck l f u.now with rxNext := (f.seq + 1) % 4096, misaddressed := satNat 8 (l.misaddressed + 1) }) ∧
      (f.type = 3 → bitsOf f.dest 6 0 = 127 → Answers (.noticeFlit dt link f) s fun t =>
        t = { u with links := t.links, jobs := t.jobs } ∧ (t.link link).rxNext = (f.seq + 1) % 4096 ∧
        t.jobs = ((noticeRecords f).foldl landNotice u).jobs) ∧
      (∀ obj x a, f.type = 7 → l.timeClass = .common → a = addrParts f.dest → a.1 = u.moduleNumber → a.2.1 ≤ 4 → a.2.2 = 15 →
        u.job f.job = some x → obj = leAt f.payload 0 2 → obj < leAt (u.jobSection x 7) 0 4 →
        Answers (.syncFlit dt link f) s fun t =>
          t = { u with links := t.links, issues := u.issues + 1, opSeq := t.opSeq, inflight := t.inflight } ∧
          (t.link link).rxNext = (f.seq + 1) % 4096 ∧ ∃ o, (∀ p, p ∈ t.inflight ↔ p ∈ u.inflight ∨ p = o) ∧
          o.due = max f.stamp u.now ∧ o.act = .arrive f.job obj (leAt f.payload 2 2) a.2.1)) ∧
    (f.type = 5 → f.seq = l.rxNext → l.rxNext < 4096 → l.state = .hello → l.hello = none → bitsOf f.dest 6 0 = 127 →
      NoDuplicates (u.updLink link (fun x => { x with hello := some (helloFrom f.payload u.now) })) →
      Answers (.helloFlit dt link f) s fun t =>
        t = { u with links := t.links } ∧ (∀ k, k ≠ link → t.link k = u.link k) ∧
        (t.link link).hello = some (helloFrom f.payload u.now) ∧ (t.link link).lastHello = helloFrom f.payload u.now ∧
        (t.link link).state = (if (takeAck l f u.now).helloAcked = true then .active else .hello)) ∧
    (∀ w m crc, w = s.after dt → m = w.link link → m.up = true → Answers (.failingFlit dt { link := link, crc := crc }) s fun t =>
      t = { w with links := t.links } ∧ (∀ k, k ≠ link → t.link k = w.link k) ∧ (t.link link).errors = satNat 32 (m.errors + 1) ∧
      (t.link link).rxNext = m.rxNext ∧
      (m.crcFrame = frameOf w.now → (t.link link).crcCount = m.crcCount + b2n crc ∧
        ((t.link link).degraded = true ↔ m.degraded = true ∨ 64 < m.crcCount + b2n crc)))

/-! ### Issues (R64 to R71) -/

/-- An issue takes place (R64, R67 to R71): entries are released and the set entry is PENDING; the completion is in flight at the listed
latency, the sequencer goes on to the record that follows, and scratchpad, hub memory and tier 1 are as they were, and tier 2 but for the trace
of a replay (R399). A command for a record that the tile's program
does not hold at that cycle issues nothing (log 5); an unassigned descriptor is refused (log 6), and one whose range ends beyond scratchpad
faults (log 19). -/
def Obligations.IssueSchedules : Prop :=
  (∀ (i : Instr) (s u : State) (tile cls : Nat) (a : Arr) (r : IssueRec), Issues i s u tile a cls r →
    Answers i s fun t =>
      t.now = u.now ∧ t.issues = u.issues + 1 ∧ t.hub = u.hub ∧ t.tier1 = u.tier1 ∧ t.parts = u.parts ∧ t.wins = u.wins ∧
      (∀ jid j, (u.tile tile).job = some jid → u.job jid = some j → j.replayRun = none → t.tier2 = u.tier2) ∧
      t.cmds = u.cmds ∧ (cls < 0x60 → t.links = u.links) ∧ (∀ k, k ≠ tile → t.tile k = u.tile k) ∧
      (∃ o, o ∈ t.inflight ∧ o.id = u.issues ∧ o.tile = tile ∧ o.unit = unitOf a cls ∧ o.record = r.index ∧ o.issued = u.now ∧
        o.spoiled = (recChecks r).any (fun e => (u.tile tile).entry e != .ready) ∧
        ((o.act = .complete (recEntry r) ∧ ∀ n, listedLatency cls = some n → o.due = u.now + n) ∨
          o.act = .deliver u.issues (recEntry r))) ∧
      (t.tile tile).score = (u.tile tile).score ∧ (t.tile tile).scratch = (u.tile tile).scratch ∧ (t.tile tile).pos = r.index + 1 ∧
      (recReleases r ≠ [] → ∃ o, o ∈ t.inflight ∧ o.id = u.issues ∧ o.tile = tile ∧ o.due = u.now ∧ o.phase = phaseRelease ∧
        o.act = .release (recReleases r)) ∧
      (r.setValid = true → ∃ o, o ∈ t.inflight ∧ o.id = u.issues ∧ o.tile = tile ∧ o.due = u.now ∧ o.phase = phaseSet ∧
        o.act = .promise r.setEntry)) ∧
  (∀ (s u : State) (dt tile c : Nat) (i : Instr) (a : Arr) (via : Bool) (reach : Reach) (r : IssueRec), u = s.after dt →
    (c, i) ∈ [(0x01, Instr.arrayWeightLoad dt tile a r), (0x02, .arrayWeightLoadExpand dt tile a r), (0x03, .activationPlain dt tile a r),
      (0x04, .activationBlockScaled dt tile a r), (0x05, .drainRequantise dt tile a r), (0x06, .drainFp32Hook dt tile a r),
      (0x10, .skimRow dt tile r), (0x30, .vectorRegisterLoad dt tile r), (0x30, .vectorRegisterStore dt tile r),
      (0x30, .predicateLoad dt tile r), (0x30, .predicateStore dt tile r), (0x30, .columnMaskLoad dt tile r),
      (0x30, .skimActivationEntryLoad dt tile r), (0x30, .skimControlWordLoad dt tile r), (0x30, .memoryBaseLoad dt tile r),
      (0x30, .zeroFill dt tile r), (0x31, .turnRead dt tile r), (0x40, .hbmReadBeside dt tile r), (0x41, .hbmReadOther dt tile r),
      (0x42, .hbmWrite dt tile r), (0x43, .lpddrAccessBeside dt tile r), (0x44, .lpddrAccessOther dt tile r),
      (0x45, .put dt tile r), (0x45, .take dt tile r), (0x50, .dieToDieSend dt tile r), (0x51, .dieToDieSendVia dt tile r),
      (if via then 0x51 else 0x50, .dieToDieReceive dt tile via r), (0x60, .lathSend dt tile r), (0x60, .compactingSend dt tile r),
      (0x60, .lathReceive dt tile r), (0x60, .scatterReceive dt tile r), (reachClass reach, .screedPart dt tile reach r),
      (reachClass reach, .screedCensus dt tile reach r), (reachClass reach, .screedSelect dt tile reach r),
      (0x80, .syncArriveSameDie dt tile r), (0x81, .syncArriveOtherDie dt tile r), (0x82, .syncArriveOtherModule dt tile r)] →
    recOk r = true → u.issuing tile a c r = true → descOk tile c r.desc = true → rangesOk c r.desc = true →
    (c ≤ 0x06 → u.arrayFenced tile a = false) →
    (c = 0x50 ∨ c = 0x51 ∨ c = 0x60 → (u.transferKind tile (c == 0x60) r.desc).isSome = true) →
    Answers i s fun t => t.now = u.now ∧ t.issues = u.issues + 1 ∧ (∀ k, k ≠ tile → t.tile k = u.tile k) ∧
      ∃ o, o ∈ t.inflight ∧ o.id = u.issues ∧ o.record = r.index ∧
        (o.act = .complete (recEntry r) ∨ o.act = .deliver u.issues (recEntry r))) ∧
  (∀ (i : Instr) (s : State) (dt tile cls : Nat) (a : Arr) (r : IssueRec), issueOf i = some (dt, tile, a, cls, r) →
    (descOk tile cls r.desc = false → exec i s = .refused .unassigned) ∧
    (descOk tile cls r.desc = true → recOk r = true → rangesOk cls r.desc = false → exec i s = .fault .beyondScratchpad) ∧
    (descOk tile cls r.desc = true → recOk r = true → rangesOk cls r.desc = true → (s.after dt).issuing tile a cls r = false →
      exec i s = .next (s.after dt)))

/-- The arrays and the Skim unit (R98, R120 to R129, R143, R151): the contract columns lie on the good physical columns in
order, and the physical lanes add up to the same sum; what an issue of each class reads, and what it leaves in flight. The
cycles of reads that no rule fixes are the model's readings (log 12). -/
def Obligations.ArrayIssues : Prop :=
  (∀ (bad : Nat) (lane : Option Nat) (line w : List Int), 480 ≤ (goodColumns bad).length → (∀ b, lane = some b → b < 32) →
    line.length = 32 → w.length = 32 →
    (columnMap bad).length = 480 ∧ (columnMap bad).Pairwise (fun x y => x < y) ∧
    (∀ p, p ∈ columnMap bad → p < 512 ∧ bitOf bad p = false ∧ ∀ q, q < p → bitOf bad q = false → q ∈ columnMap bad) ∧
    physicalSum (spreadLanes lane line) (spreadLanes lane w) = treeSum line w) ∧
  (∀ (i : Instr) (s u : State) (tile cls : Nat) (a : Arr) (r : IssueRec) (d : BitVec 48), Issues i s u tile a cls r → d = r.desc →
    (∀ f, cls = 0x01 ∨ cls = 0x02 → fmtOf (fld d 27 24) = some f → Answers i s fun t =>
      InFlight t u tile (u.now + (if cls = 0x01 then 13 else 15)) (.weightsBusy a (fld d 23 23)) ∧
      InFlight t u tile (u.now + (if cls = 0x01 then 47 else 49)) (.setWeights a (fld d 23 23)
        (loadColumns f (fld d 22 22 == 1) ((u.tile tile).bytes (fld d 47 28) (groupSize f)))) ∧ (t.tile tile).arr a = (u.tile tile).arr a) ∧
    (cls = 0x03 ∨ cls = 0x04 → Answers i s fun t =>
      InFlight t u tile u.now (.readLine a d (cls == 4) (if fld d 3 3 = 1 then ((u.tile tile).arr a).mask else 0)) ∧
      (∀ f, fld d 15 15 = 1 → fmtOf (fld d 9 6) = some f → InFlight t u tile u.now (.fill a (fld d 47 28) f)) ∧
      (t.tile tile).arr a = (u.tile tile).arr a) ∧
    (∀ bits bias mask, cls = 0x05 → bits = (if fld d 18 17 = 0 then 8 else 16) → mask = (if fld d 0 0 = 1 then ((u.tile tile).arr a).mask else 0) →
      bias = (fun n => if fld d 10 1 = 1023 then 0 else sextNat 32 (leAt (Mem.read (u.tile tile).scratch (2048 * fld d 10 1) 1920) (4 * n) 4)) →
      Answers i s fun t =>
      InFlight t u tile (u.now + 11) (.write (32 * fld d 47 28) ((((u.tile tile).arr a).row (fld d 27 20)).zipIdx.flatMap (fun e =>
        (leBytes (bits / 8) (BitVec.ofInt bits (requantise bits (fld d 16 11) e.1 (bias e.2)).1).toNat).map (fun x =>
          if bitOf mask e.2 then none else some x)))) ∧
      (∀ k, ((t.tile tile).arr a).row k = if fld d 19 19 = 1 ∧ k = fld d 27 20 then List.replicate 480 0
        else ((u.tile tile).arr a).row k)) ∧
    (cls = 0x06 → Answers i s fun t =>
      InFlight t u tile (u.now + 8) (.hook a (fld d 6 1) (fld d 47 28)
        ((((u.tile tile).arr a).row (fld d 27 20)).map (fun v => drainFp32 v (sextNat 10 (fld d 16 7))))
        (if fld d 0 0 = 1 then ((u.tile tile).arr a).mask else 0)) ∧
      (∀ k, ((t.tile tile).arr a).row k = if fld d 19 19 = 1 ∧ k = fld d 27 20 then List.replicate 480 0
        else ((u.tile tile).arr a).row k)) ∧
    (cls = 0x10 → Answers i s fun t =>
      InFlight t u tile (u.now + 24) (.skim d (SMap.getD {} (u.tile tile).skim.entries (fld d 13 9)) (u.tile tile).skim.control) ∧
      (t.tile tile).skim = (u.tile tile).skim))

/-- The vector engine (R108, R147 to R149, R187, R188): compares, reductions and lane functions on the lanes that the predicate
enables, their results in flight at the listed latency; a fused function whose checks hold changes its row at once. A non-finite
entry that FSTAT did not see counts as zero by the model's reading (log 94). -/
def Obligations.VectorIssues : Prop :=
  (∀ (s u : State) (dt tile c f : Nat) (i : Instr) (r : IssueRec), u = s.after dt →
    (c, f, i) ∈ [(0x20, 0x00, Instr.fadd dt tile r), (0x20, 0x01, .fsub dt tile r), (0x20, 0x02, .fmul dt tile r),
      (0x20, 0x03, .ffma dt tile r), (0x20, 0x04, .fmax dt tile r), (0x20, 0x05, .fmin dt tile r), (0x20, 0x06, .fcmp dt tile r),
      (0x20, 0x07, .fsel dt tile r), (0x20, 0x08, .cvtfs dt tile r), (0x20, 0x09, .cvtsf dt tile r), (0x20, 0x0A, .fneg dt tile r),
      (0x20, 0x0B, .fabs dt tile r), (0x20, 0x10, .iadd dt tile r), (0x20, 0x11, .isub dt tile r), (0x20, 0x12, .imullo dt tile r),
      (0x20, 0x13, .imulhu dt tile r), (0x20, 0x14, .iand dt tile r), (0x20, 0x15, .ior dt tile r), (0x20, 0x16, .ixor dt tile r),
      (0x20, 0x17, .ishl dt tile r), (0x20, 0x18, .ishrl dt tile r), (0x20, 0x19, .ishra dt tile r),
      (0x20, 0x1A, .irotl dt tile r), (0x20, 0x1B, .imax dt tile r), (0x20, 0x1C, .imin dt tile r), (0x20, 0x1D, .icmp dt tile r),
      (0x20, 0x1E, .isel dt tile r), (0x20, 0x1F, .bcast dt tile r), (0x21, 0x20, .fdiv dt tile r), (0x21, 0x21, .fsqrt dt tile r),
      (0x21, 0x22, .frsqrt dt tile r), (0x22, 0x28, .fexp dt tile r), (0x22, 0x29, .flog dt tile r),
      (0x22, 0x2A, .ftanh dt tile r), (0x22, 0x2B, .fsig dt tile r), (0x22, 0x2C, .ferf dt tile r), (0x22, 0x2D, .fexp2 dt tile r),
      (0x22, 0x2E, .flog2 dt tile r), (0x23, 0x30, .rfsum dt tile r), (0x23, 0x31, .rfmax dt tile r),
      (0x23, 0x32, .rfmin dt tile r), (0x23, 0x33, .risum dt tile r), (0x23, 0x34, .rargmax dt tile r),
      (0x24, 0x40, .finit dt tile r), (0x24, 0x41, .fstat dt tile r), (0x24, 0x42, .fhist dt tile r),
      (0x24, 0x43, .fselect dt tile r), (0x24, 0x44, .fgrad dt tile r), (0x24, 0x45, .fsave dt tile r),
      (0x24, 0x46, .fmerge dt tile r), (0x24, 0x47, .fclose dt tile r)] →
    fld r.desc 47 40 = f → vectorOk c r.desc = true → recOk r = true → u.issuing tile .hawk c r = true →
    Answers i s fun t => t.now = u.now ∧ t.issues = u.issues + 1 ∧ (∀ k, k ≠ tile → t.tile k = u.tile k) ∧
      ∃ o, o ∈ t.inflight ∧ o.id = u.issues ∧ o.record = r.index ∧ o.act = .complete (recEntry r) ∧
        o.due = u.now + vectorLatency c) ∧
  (∀ (i : Instr) (s u : State) (tile cls f k pm : Nat) (r : IssueRec) (d : BitVec 48) (x y z : List F32), Issues i s u tile .hawk cls r →
    d = r.desc → f = fld d 47 40 → k = fld d 6 0 → pm = (u.tile tile).pred (fld d 15 13) → x = (u.tile tile).vreg (fld d 33 28) →
    y = (u.tile tile).vreg (fld d 27 22) → z = (u.tile tile).vreg (fld d 21 16) →
    (cls = 0x20 → f = 0x06 ∨ f = 0x1D → Answers i s fun t =>
      InFlight t u tile (u.now + 4) (.setPred (fld d 36 34) ((List.range 128).map (fun n =>
        if bitOf pm n then some (if f = 0x06 then fcmp k (laneAt x n) (laneAt y n) else icmp k (laneAt x n) (laneAt y n)) else none)))) ∧
    (cls = 0x23 → Answers i s fun t =>
      InFlight t u tile (u.now + 30) (.setLanes (fld d 39 34) ((List.range 128).map (fun n =>
        if bitOf pm n then some (reduce f x (bitOf pm)).1 else none)))) ∧
    (cls = 0x20 ∨ cls = 0x21 ∨ cls = 0x22 → f ≠ 0x06 → f ≠ 0x1D → Answers i s fun t =>
      InFlight t u tile (u.now + vectorLatency cls) (.setLanes (fld d 39 34) ((List.range 128).map (fun n =>
        if bitOf pm n then some (if f = 0x1F then laneAt x (k % 128)
          else (laneFn f k (laneAt x n) (laneAt y n) (laneAt z n) (bitOf ((u.tile tile).pred (fld d 2 0)) n)).bits) else none)))) ∧
    (cls = 0x24 → Answers i s fun t => ∃ out free n, out = fusedRow f (fld d 21 16) (fld d 6 5) (SMap.getD {} (u.tile tile).rows (fld d 4 0))
        (u.tile tile) (fld d 33 28) (fld d 27 22) n free ∧
      ((recChecks r).any (fun e => (u.tile tile).entry e != .ready) = false →
        (t.tile tile).rows = SMap.set (u.tile tile).rows (fld d 4 0) out.row) ∧ (t.tile tile).vregs = (u.tile tile).vregs ∧
      (out.lanes ≠ [] → ∀ m, m < destCount f (fld d 21 16) →
        InFlight t u tile (u.now + 64) (.setLanes (fld d 39 34 + m) (destLanes out.lanes m)))))

/-- Scratchpad, memory and the stash (R156, R157, R160 to R164, R217 to R221): loads and stores of class 0x30, turns, and the
accesses of unit 5 at their arrival cycles; an access that misses its window, or its grant, is counted and not performed: of a read zeros
land, and a write changes nothing. The cycles of reads that
no rule fixes, and the order of a packed put's bytes, are the model's readings (logs 12 and 17). -/
def Obligations.MemoryIssues : Prop :=
  (∀ (s : State) (o : Op) (p : MemJob) (done : Nat) (bs : List Byte), p.live = false →
    doMemRead s o p done = s.emit o (done - 1) phaseLand (.write (32 * p.unit) (List.replicate (landBytes p.code p.fpMem p.len) (some 0))) ∧
    doMemWrite s o p bs = s ∧ ∀ off scales keep, doPut s o p off bs scales keep = s) ∧
  ∀ (i : Instr) (s u : State) (tile cls : Nat) (r : IssueRec) (d b : Nat) (w : BitVec 48), Issues i s u tile .hawk cls r → w = r.desc →
    d = fld w 47 28 → b = (SMap.getD 0 (u.tile tile).bases (fld w 27 24)).toNat →
    (cls = 0x30 → fld w 22 22 = 0 → Answers i s fun t => InFlight t u tile (u.now + 3) (loadAct (u.tile tile) w)) ∧
    (cls = 0x30 → fld w 22 22 = 1 → Answers i s fun t =>
      InFlight t u tile (u.now + 2) (.write (32 * d) ((storeBytes (u.tile tile) w).map some))) ∧
    (∀ f, cls = 0x31 → fmtOf (fld w 7 4) = some f → Answers i s fun t =>
      InFlight t u tile (u.now + 4) (.write (32 * fld w 27 8) ((turnSegment f ((u.tile tile).bytes d (segBytes f))).map some))) ∧
    (∀ j p code fp len addr, 0x40 ≤ cls → cls ≤ 0x44 → code = fld w 3 0 → fp = (fld w 4 4 == 1) →
      len = (if code = 0 then 32 * (fld w 10 6 + 1) else convMemBytes code fp) →
      Performed u tile cls (windowOffset (u.tile tile) w) len (bitsOf b 63 62) j addr →
      p = { addr := addr, die := dieOf tile, tier2 := bitsOf b 63 62 == 1, part := j.part, len := len, unit := d, code := code,
            fpMem := fp, exponent := coarseExp (bitsOf b 61 54), live := true } →
      (fld w 5 5 = 0 → Answers i s fun t => InFlight t u tile (u.now + memArrival cls) (.memRead p)) ∧
      (fld w 5 5 = 1 → Answers i s fun t => InFlight t u tile (u.now + memArrival cls) (.memWrite p
        (convert code fp (coarseExp (bitsOf b 61 54))
          ((u.tile tile).bytes d (if code = 0 then len else if fp then landBytes code true len else 4096))).bytes))) ∧
    (∀ j code addr p run, cls = 0x45 → code = fld w 3 0 → j.live = some run →
      Performed u tile cls (windowOffset (u.tile tile) w) (segBytes (stashForm code).1) (bitsOf b 63 62) j addr →
      p = { addr := addr, die := dieOf tile, tier2 := bitsOf b 63 62 == 1, part := j.part, len := segBytes (stashForm code).1, unit := d,
            code := code, fpMem := false, exponent := coarseExp (bitsOf b 61 54), live := true } →
      (fld w 5 5 = 0 → Answers i s fun t =>
        InFlight t u tile (u.now + 8) (.take p (windowOffset (u.tile tile) w) (fld w 4 4 == 0))) ∧
      (fld w 5 5 = 1 → Answers i s fun t =>
        InFlight t u tile (u.now + 8) (.put p (windowOffset (u.tile tile) w)
          (convert code false (coarseExp (bitsOf b 61 54)) ((u.tile tile).bytes d 4096)).bytes
          (segScales (stashForm code).1 (convert code false (coarseExp (bitsOf b 61 54)) ((u.tile tile).bytes d 4096)).bytes)
          (stashForm code).2 ((u.tile tile).stash.plan.any (fun q => decide (q.keep ≤ u.now - run.start)))))) ∧
    (∀ j jid code fp len p window, (u.tile tile).job = some jid → u.job jid = some j → bitsOf b 63 62 < 2 → code = fld w 3 0 →
      fp = (decide (cls ≠ 0x45) && fld w 4 4 == 1) →
      len = (if cls = 0x45 then segBytes (stashForm code).1 else if code = 0 then 32 * (fld w 10 6 + 1) else convMemBytes code fp) →
      (window = true → (u.part j.part).windowAddr (dieOf tile) (bitsOf b 63 62 == 1) (windowOffset (u.tile tile) w) len = none) →
      (window = false → ((u.part j.part).windowAddr (dieOf tile) (bitsOf b 63 62 == 1) (windowOffset (u.tile tile) w) len).isSome = true ∧
        slotsGranted ((u.part j.part).grant (bitsOf b 63 62 == 1)) (bitsOf b 63 62 == 1) (u.now + memArrival cls)
          (slotCount (bitsOf b 63 62 == 1) len) = false) →
      p = { addr := 0, die := dieOf tile, tier2 := bitsOf b 63 62 == 1, part := j.part, len := len, unit := d, code := code,
            fpMem := fp, exponent := coarseExp (bitsOf b 61 54), live := false } →
      (0x40 ≤ cls → cls ≤ 0x44 → fld w 5 5 = 0 → Answers i s fun t =>
        NotPerformed t u tile (u.now + memArrival cls) r window (.memRead p)) ∧
      (0x40 ≤ cls → cls ≤ 0x44 → fld w 5 5 = 1 → Answers i s fun t => ∃ bs,
        NotPerformed t u tile (u.now + memArrival cls) r window (.memWrite p bs)) ∧
      (cls = 0x45 → fld w 5 5 = 0 → Answers i s fun t =>
        NotPerformed t u tile (u.now + 8) r window (.take p (windowOffset (u.tile tile) w) (fld w 4 4 == 0))) ∧
      (cls = 0x45 → fld w 5 5 = 1 → Answers i s fun t => ∃ bs scales sq keep,
        NotPerformed t u tile (u.now + 8) r window (.put p (windowOffset (u.tile tile) w) bs scales sq keep)))

/-- Transfers, contributions and arrives (R251, R360 to R364, R475): data leaves for its die or link, a receive is open until
its delivery cycle, a census, select, hold or flush part reads its residuals 24 cycles later, a direct or thin part sends its packet, to a home on
this module or as flits on the send's link, and an arrive counts at its listed latency. A
class 0x50 send to a die that is no neighbour, the tail of a compacting send, and the ready cycle of an arrive's flit are the
model's readings (logs 15, 84 and 85). -/
def Obligations.TransferIssues : Prop :=
  ∀ (i : Instr) (s u : State) (tile cls jid : Nat) (r : IssueRec) (d : BitVec 48) (j : Job), Issues i s u tile .hawk cls r → d = r.desc →
    (u.tile tile).job = some jid → u.job jid = some j →
    (∀ e mid bs, cls = 0x50 ∨ cls = 0x51 → u.transfer j false false d = some e → (u.part j.part).pooled = false →
      (u.part j.part).grantDie = 2 ^ 64 - 1 → mid = (if cls = 0x51 then e.via else e.link) →
      u.hopUp (dieOf tile) mid = true → u.hopUp mid e.link = true → (recChecks r).any (fun n => (u.tile tile).entry n != .ready) = false →
      bs = (if e.mode = 1 then compact e (lanesOf e.values ((u.tile tile).bytes (fld d 34 15) (4 * e.values)))
        else (u.tile tile).bytes (fld d 34 15) (32 * e.units)) →
      Answers i s fun t => InFlight t u tile (u.now + dieLatency cls e.units - 1) (.dieLand jid e.remote bs (bitsOf e.dest 6 0) mid)) ∧
    (∀ e, cls = 0x50 ∨ cls = 0x51 → u.transfer j false false d = none → u.transfer j false true d = some e →
      Answers i s fun t => InFlight t u tile (u.now + dieLatency cls e.units + (if e.mode = 2 then 8 else 0))
          (.deliver u.issues (recEntry r)) ∧
        ∃ y x w, t.job jid = some y ∧ y.run = some x ∧ w ∈ x.recvs ∧ w.id = u.issues ∧ w.entry = e.entry ∧ w.tile = tile ∧
        w.address = fld d 34 15 ∧ w.delivery = u.now + dieLatency cls e.units + (if e.mode = 2 then 8 else 0)) ∧
    (∀ e bs, cls = 0x60 → u.transfer j true false d = some e → (u.part j.part).grantLath = 2 ^ 64 - 1 → j.barred = [] →
      (recChecks r).any (fun n => (u.tile tile).entry n != .ready) = false →
      bs = (if e.mode = 1 then compact e (lanesOf e.values ((u.tile tile).bytes (fld d 34 15) (4 * e.values)))
        else (u.tile tile).bytes (fld d 34 15) (32 * e.units)) →
      (u.link e.link).width ∈ [1, 2, 3] →
      Answers i s fun t => (∀ k, k ≠ e.link → t.link k = u.link k) ∧
        Queued t u e.link j.part (u.now + (if e.mode = 1 then ceilDiv e.values 128 + 4 else 0)) (flitsOf jid e.dest e.remote bs)) ∧
    (∀ e b sel bytes part off lat p, 0x70 ≤ cls → cls ≤ 0x72 → u.sendEntry j tile (fld d 27 14) = some e →
      u.bucketEntry j e.bucket = some b → sel = u.selection j b.selector → bytes = (if sel.1 = 0 then 2048 else 4096) → part = fld d 11 0 →
      (recChecks r).any (fun n => (u.tile tile).entry n != .ready) = false →
      (fld d 13 12 = 1 ∨ fld d 13 12 = 2 ∨ (fld d 13 12 = 0 ∧ e.mode ≠ 0 ∧ e.mode ≠ 2) → (u.part j.part).pooled = false →
        Answers i s fun t => InFlight t u tile (u.now + 24) (.residRead e.send part (fld d 13 12) ((u.tile tile).bytes (fld d 47 28) bytes)
          (partNan (u.tile tile) e (fld d 47 28) bytes))) ∧
      (∀ xs, fld d 13 12 = 0 → e.mode = 0 → xs = contribution sel.1 ((u.tile tile).bytes (fld d 47 28) bytes) → off = e.offset + 2048 * part →
        lat = screedLatency u j tile cls e (packetUnits sel.1) →
        p = { packetOf u j jid tile e part sel.1 sel.2 with
          sat := xs.any (contribSat sel.1), nan := partNan (u.tile tile) e (fld d 47 28) bytes,
          vals := xs.zipIdx.map (fun v => (off + v.2, v.1)) } →
        (cls ≠ 0x72 → Answers i s fun t => InFlight t u tile (u.now + lat) (.packet p b.die)) ∧
        (cls = 0x72 → (u.part j.part).grantLath = 2 ^ 64 - 1 → j.barred = [] → (u.link e.link).width ∈ [1, 2, 3] →
          Answers i s fun t => Queued t u e.link j.part u.now (flitsOf jid (b.module * 128 + b.die * 16 + 15) 0 (p.header off ++ p.payloadBytes)))) ∧
      (∀ ws run, fld d 13 12 = 0 → e.mode = 2 → run = SMap.getD {} (u.tile tile).sends e.send →
        ws = (List.range 512).map (fun n => Mem.num (u.tile tile).scratch (32 * e.list + 4096 * part + 8 * n) 8) →
        lat = screedLatency u j tile cls e (packetUnits 3) →
        p = { packetOf u j jid tile e part 3 sel.2 with
          sat := part == 0 && run.sat, nan := if part = 0 then run.nan else 0,
          vals := (ws.filter (fun x => x / 2 ^ 32 != 0xFFFFFFFF)).map (fun x => (x / 2 ^ 32, sextNat 32 x)) } →
        (cls ≠ 0x72 → Answers i s fun t => InFlight t u tile (u.now + lat) (.packet p b.die)) ∧
        (cls = 0x72 → (u.part j.part).grantLath = 2 ^ 64 - 1 → j.barred = [] → (u.link e.link).width ∈ [1, 2, 3] →
          Answers i s fun t => Queued t u e.link j.part u.now (flitsOf jid (b.module * 128 + b.die * 16 + 15) 0 (p.header 0 ++ p.payloadBytes))))) ∧
    ((recChecks r).any (fun n => (u.tile tile).entry n != .ready) = false →
      (cls = 0x80 → Answers i s fun t => InFlight t u tile (u.now + 16) (.arrive jid (fld d 47 34) (fld d 33 20) (dieOf tile))) ∧
      (cls = 0x81 → Answers i s fun t => InFlight t u tile (u.now + 48) (.arrive jid (fld d 47 34) (fld d 33 20) (fld d 19 17))) ∧
      (∀ f, cls = 0x82 → (u.part j.part).grantLath = 2 ^ 64 - 1 → j.barred = [] → (u.link (fld d 6 1)).width ∈ [1, 2, 3] →
        f = ({ type := 7, job := jid, dest := fld d 16 7 * 128 + fld d 19 17 * 16 + 15, last := true,
               stamp := u.now + (boundOf (u.jobSection j 4) (fld d 6 1)).getD 0 + 16,
               payload := fitTo 0 240 (leBytes 2 (fld d 47 34) ++ leBytes 2 (fld d 33 20)) } : Flit) →
        Answers i s fun t => Queued t u (fld d 6 1) j.part u.now [f]))

/-- What is in flight takes effect in the order of time (R69, R148, R155, R347): register results and scratchpad bytes at their cycles, and
at the completion the set entry goes from PENDING to READY; terms reach their row in issue order (R121, R122); a repeat puts every issue of its iterations in flight. -/
def Obligations.Completions : Prop :=
  ∀ (s u : State) (dt : Nat), u = s.after dt → u.acts = [] →
    (∀ o e, u.inflight = [o] → o.act = .complete e → o.ctl = none → u.now ≤ o.due → o.phase = phaseResult → o.spoiled = false →
      (∀ n, e = some n → (u.tile o.tile).entry n = .pending) →
      Answers (.operationComplete dt o.id .ok) s fun t =>
        t = { u with inflight := [], now := o.due, tiles := t.tiles } ∧ (∀ k, k ≠ o.tile → t.tile k = u.tile k) ∧
        (∀ n, e = some n → t.tile o.tile = (u.tile o.tile).setEntry n .ready) ∧ (e = none → t.tiles = u.tiles)) ∧
    (∀ o c, u.inflight = [o, c] → c.act = .complete none → c.ctl = none → c.id = o.id → c.tile = o.tile → u.now ≤ o.due → o.due < c.due →
      c.phase = phaseResult → o.spoiled = false → c.spoiled = false →
      (∀ n ls, o.act = .setLanes n ls → Answers (.operationComplete dt o.id .ok) s fun t =>
        t = { u with inflight := [], now := c.due, tiles := t.tiles } ∧ t.tile o.tile = (u.tile o.tile).setLanes n ls) ∧
      (∀ n bs, o.act = .setPred n bs → Answers (.operationComplete dt o.id .ok) s fun t =>
        t = { u with inflight := [], now := c.due, tiles := t.tiles } ∧ t.tile o.tile = (u.tile o.tile).setPred n bs) ∧
      (∀ n bs, o.act = .write n bs → Answers (.operationComplete dt o.id .ok) s fun t =>
        t = { u with inflight := [], now := c.due, tiles := t.tiles } ∧ t.tile o.tile = (u.tile o.tile).store n bs) ∧
      (∀ n v, o.act = .setBase n v → Answers (.operationComplete dt o.id .ok) s fun t =>
        t = { u with inflight := [], now := c.due, tiles := t.tiles } ∧
        t.tile o.tile = { u.tile o.tile with bases := SMap.set (u.tile o.tile).bases n (baseKept v) }) ∧
      (∀ es, o.act = .release es → Answers (.operationComplete dt o.id .ok) s fun t =>
        t = { u with inflight := [], now := c.due, tiles := t.tiles } ∧
        ∀ n, (t.tile o.tile).entry n = if n ∈ es then .empty else (u.tile o.tile).entry n) ∧
      (∀ e, o.act = .promise e → (u.tile o.tile).entry e = .empty → Answers (.operationComplete dt o.id .ok) s fun t =>
        t = { u with inflight := [], now := c.due, tiles := t.tiles } ∧ t.tile o.tile = (u.tile o.tile).setEntry e .pending) ∧
      (∀ a n st bl ts l, o.act = .addRow a n st bl ts → l = ((u.tile o.tile).arr a).last → ts.length = 480 →
        Answers (.operationComplete dt o.id .ok) s fun t =>
          t = { u with inflight := [], now := c.due, tiles := t.tiles } ∧
          (∀ k, k ≠ n → ((t.tile o.tile).arr a).row k = ((u.tile o.tile).arr a).row k) ∧
          (l = none → ((t.tile o.tile).arr a).row n =
            List.zipWith (fun v x => (accumulate (if bl then 64 else 40) st v x).1) (((u.tile o.tile).arr a).row n) ts) ∧
          (∀ x, l = some x → bl = true → x.row = n → x.issued = o.issued + 1 → x.old.length = 480 → x.terms.length = 480 →
            ((t.tile o.tile).arr a).row n = List.zipWith (fun v y => (accumulate 40 x.start v y).1)
              (List.zipWith (fun v y => (accumulate 64 st v y).1) x.old ts) x.terms))) ∧
    (∀ o e id j r w, u.inflight = [o] → o.act = .deliver id (some e) → o.status = .ok → u.now ≤ o.due → o.phase = phaseResult →
      o.spoiled = false → u.job o.job = some j → j.replayRun = none → j.run = some r → r.abandoned = false → r.recvs = [w] →
      w.id = id → w.done = false → w.tile = o.tile → (u.tile o.tile).entry e = .pending → w.complete = true →
      Answers (.transferDelivery dt o.id .ok) s fun t =>
        t.now = o.due ∧ t.inflight = [] ∧ (t.tile o.tile).entry e = .ready ∧
        t.job o.job = some { j with run := some { r with recvs := [{ w with done := true }] } }) ∧
    (∀ tile index ws l, l = repeatList index (spanned ws) → unrolledOk tile l = true → unrolledIn l = true →
      u.repeating tile index (spanned ws) = true →
      Answers (.repeatRec dt tile index ws) s fun t =>
        t = { u with inflight := t.inflight, issues := u.issues + l.length, opSeq := u.opSeq + l.length, tiles := t.tiles } ∧
        (∀ k, t.tile k = if k = tile then { u.tile k with pos := index + (spanned ws).length } else u.tile k) ∧
        ∀ x, x ∈ l → ∃ o, o ∈ t.inflight ∧ o.tile = tile ∧ o.act = .issue (arrOf x.2.1) x.2.2.1 x.2.2.2 ∧ o.phase = phaseIssue ∧
          o.due = u.now - bitsOf ((spanned ws).headD 0) 127 96 + x.1)

/-! ### The whole machine -/

/-- Every step keeps every memory of the module in its canonical form. -/
def Obligations.MemoryStaysCanonical : Prop :=
  ∀ s t : State, Canonical s → step s = .next t → Canonical t

/-- No command changes what the fuses hold (R432, R353) or the commands that wait behind it, and none leaves a time source barred (R38) on a
module that is UNLOCKED, ACQUIRING or FENCED. -/
def Obligations.FusesStay : Prop :=
  ∀ s t : State, step s = .next t →
    t.variantB = s.variantB ∧ t.serial = s.serial ∧ t.idHash = s.idHash ∧ t.pending = s.pending.drop 1 ∧
    (SourcesBarred s → SourcesBarred t)

/-- Right after reset (R13, R403 to R407, log 1): the invariant holds, nothing runs or waits, the Plumb plane is UNLOCKED, the operator's
window alone is open, and every memory byte reads as zero, which is the model's choice (log 3). -/
def Obligations.ResetState : Prop :=
  Canonical State.reset ∧ State.reset.pending = [] ∧ State.reset.jobs = [] ∧ State.reset.inflight = [] ∧ State.reset.acts = [] ∧
  State.reset.plumb.state = .unlocked ∧ State.reset.plumb.source = 127 ∧ State.reset.plumb.hop = 15 ∧
  (∀ l, (State.reset.link l).state = .down) ∧ State.reset.wins.map (fun w => w.1) = [0] ∧ (State.reset.win 0).fresh ∧
  (∀ p, (State.reset.part p).state = .free) ∧ SourcesBarred State.reset ∧ State.reset.quiesce = .none ∧ State.reset.failed = false ∧ State.reset.lostDies = [] ∧
  SMap.find State.reset.regs 0x20 = some (packMsb [(48, 0), (4, 15), (3, 0), (7, 127), (2, 0)]) ∧
  (∀ die a, Mem.byte (SMap.getD [] State.reset.tier1 die) a = 0)
end

