-- ==== Sys2Proof/Laws/Bytes.lean ====
section
/-!
SUPPORT. Sys2Proof/Laws/Bytes.lean: bytes in little-endian order, slices, and lists kept in order.
-/
namespace Sys2Proof.Machine

@[simp] theorem leBytes_length (k n : Nat) : (leBytes k n).length = k := by simp [leBytes]

theorem leBytes_one (n : Nat) : leBytes 1 n = [BitVec.ofNat 8 n] := by simp [leBytes]

/-- The first byte, then the rest of the number. -/
theorem leBytes_succ (k n : Nat) : leBytes (k + 1) n = BitVec.ofNat 8 n :: leBytes k (n / 256) := by
  simp only [leBytes, List.range_succ_eq_map, List.map_cons, List.map_map]
  refine List.cons_eq_cons.2 ⟨by simp, ?_⟩
  apply List.map_congr_left
  intro i _
  simp only [Function.comp, Nat.shiftRight_eq_div_pow]
  rw [Nat.div_div_eq_div_mul, show 8 * (i + 1) = 8 + 8 * i from by omega, Nat.pow_add]

/-- Bytes read back as a number: the number, as far as it fits. -/
theorem leNat_leBytes (k n : Nat) : leNat (leBytes k n) = n % 256 ^ k := by
  induction k generalizing n with
  | zero => simp [leBytes, leNat, Nat.mod_one]
  | succ k ih =>
    rw [leBytes_succ]
    simp only [leNat, List.foldr_cons] at ih ⊢
    rw [ih]
    simp
    rw [Nat.pow_succ, Nat.mul_comm (256 ^ k) 256, Nat.mod_mul]

theorem slice_append_left {α : Type} (a b : List α) : slice (a ++ b) 0 a.length = a := by simp [slice]

/-- A slice behind a prefix of known length. -/
theorem slice_append_right {α : Type} (a b : List α) {m n : Nat} (h : a.length ≤ m) :
    slice (a ++ b) m n = slice b (m - a.length) n := by
  simp only [slice, List.drop_append]
  rw [List.drop_eq_nil_of_le h]; simp

/-! ### Lists in order -/

@[simp] theorem mem_insertBy {α : Type} (le : α → α → Bool) (a x : α) (l : List α) : x ∈ insertBy le a l ↔ x = a ∨ x ∈ l := by
  induction l with
  | nil => simp [insertBy]
  | cons b l ih =>
    simp only [insertBy]
    split
    · simp
    · simp only [List.mem_cons, ih]; exact ⟨fun h => by rcases h with h | h | h <;> simp [h], fun h => by rcases h with h | h | h <;> simp [h]⟩

@[simp] theorem mem_sortBy {α : Type} (le : α → α → Bool) (x : α) (l : List α) : x ∈ sortBy le l ↔ x ∈ l := by
  induction l with
  | nil => simp [sortBy]
  | cons a l ih => simp only [sortBy, List.foldr_cons] at ih ⊢; simp [ih]

theorem insertBy_length {α : Type} (le : α → α → Bool) (a : α) (l : List α) : (insertBy le a l).length = l.length + 1 := by
  induction l with
  | nil => rfl
  | cons b l ih => simp only [insertBy]; split <;> simp [ih]

end Sys2Proof.Machine
end

