-- ==== Sys2Proof/Laws/SMap.lean ====
section
/-!
SUPPORT. Sys2Proof/Laws/SMap.lean: reading a sparse map after it has been changed. Each lemma holds of every list of pairs,
sorted or not.
-/
namespace Sys2Proof
variable {α : Type}

@[simp] theorem SMap.getD_nil (d : α) (k : Nat) : SMap.getD d [] k = d := rfl
@[simp] theorem SMap.find_nil (k : Nat) : SMap.find ([] : SMap α) k = none := rfl

/-- Reading with a default is finding. -/
theorem SMap.getD_eq_find (d : α) (m : SMap α) (k : Nat) : SMap.getD d m k = (SMap.find m k).getD d := by
  induction m with
  | nil => rfl
  | cons e r ih => obtain ⟨j, v⟩ := e; by_cases h : j = k <;> simp [SMap.getD, SMap.find, h, ih]

@[simp] theorem SMap.find_set_same (m : SMap α) (k : Nat) (v : α) : SMap.find (SMap.set m k v) k = some v := by
  induction m with
  | nil => simp [SMap.set, SMap.find]
  | cons e r ih =>
    obtain ⟨j, w⟩ := e
    by_cases h1 : k < j
    · simp [SMap.set, h1, SMap.find]
    · by_cases h2 : j = k
      · simp [SMap.set, h2, SMap.find]
      · simp [SMap.set, h1, h2, SMap.find, ih]

theorem SMap.find_set_ne (m : SMap α) {k l : Nat} (v : α) (h : l ≠ k) : SMap.find (SMap.set m k v) l = SMap.find m l := by
  induction m with
  | nil => simp [SMap.set, SMap.find, h.symm]
  | cons e r ih =>
    obtain ⟨j, w⟩ := e
    by_cases h1 : k < j
    · simp [SMap.set, h1, SMap.find, h.symm]
    · by_cases h2 : j = k
      · subst h2; simp [SMap.set, SMap.find, h.symm]
      · simp [SMap.set, h1, h2, SMap.find, ih]

/-- Finding after a change. -/
theorem SMap.find_set (m : SMap α) (k l : Nat) (v : α) :
    SMap.find (SMap.set m k v) l = if l = k then some v else SMap.find m l := by
  by_cases h : l = k
  · subst h; simp
  · simp [h, SMap.find_set_ne]

@[simp] theorem SMap.getD_set_same (d : α) (m : SMap α) (k : Nat) (v : α) : SMap.getD d (SMap.set m k v) k = v := by
  simp [SMap.getD_eq_find]

theorem SMap.getD_set_ne (d : α) (m : SMap α) {k l : Nat} (v : α) (h : l ≠ k) :
    SMap.getD d (SMap.set m k v) l = SMap.getD d m l := by
  simp [SMap.getD_eq_find, SMap.find_set_ne _ _ h]

/-- Reading after a change. -/
theorem SMap.getD_set (d : α) (m : SMap α) (k l : Nat) (v : α) :
    SMap.getD d (SMap.set m k v) l = if l = k then v else SMap.getD d m l := by
  by_cases h : l = k
  · subst h; simp
  · simp [h, SMap.getD_set_ne]

@[simp] theorem SMap.find_erase_same (m : SMap α) (k : Nat) : SMap.find (SMap.erase m k) k = none := by
  induction m with
  | nil => rfl
  | cons e r ih =>
    obtain ⟨j, w⟩ := e
    simp only [SMap.erase] at ih ⊢
    by_cases h : j = k <;> simp [h, SMap.find, ih]

theorem SMap.find_erase_ne (m : SMap α) {k l : Nat} (h : l ≠ k) : SMap.find (SMap.erase m k) l = SMap.find m l := by
  induction m with
  | nil => rfl
  | cons e r ih =>
    obtain ⟨j, w⟩ := e
    simp only [SMap.erase] at ih ⊢
    by_cases h2 : j = k
    · subst h2; simp [SMap.find, h.symm, ih]
    · simp [h2, SMap.find, ih]

@[simp] theorem SMap.getD_erase_same (d : α) (m : SMap α) (k : Nat) : SMap.getD d (SMap.erase m k) k = d := by
  simp [SMap.getD_eq_find]

theorem SMap.getD_erase_ne (d : α) (m : SMap α) {k l : Nat} (h : l ≠ k) : SMap.getD d (SMap.erase m k) l = SMap.getD d m l := by
  simp [SMap.getD_eq_find, SMap.find_erase_ne _ h]

/-- Finding in a map whose values are all changed. -/
theorem SMap.find_map {β : Type} (m : SMap α) (f : α → β) (k : Nat) :
    SMap.find (m.map (fun e => (e.1, f e.2))) k = (SMap.find m k).map f := by
  induction m with
  | nil => rfl
  | cons e r ih => obtain ⟨j, w⟩ := e; by_cases h : j = k <;> simp [SMap.find, h, ih]

/-- Finding in a map whose values are changed by key. -/
theorem SMap.find_mapKey {β : Type} (m : SMap α) (f : Nat → α → β) (k : Nat) :
    SMap.find (m.map (fun e => (e.1, f e.1 e.2))) k = (SMap.find m k).map (f k) := by
  induction m with
  | nil => rfl
  | cons e r ih => obtain ⟨j, w⟩ := e; by_cases h : j = k <;> simp [SMap.find, h, ih]

/-- What is found is listed. -/
theorem SMap.mem_of_find {m : SMap α} {k : Nat} {v : α} (h : SMap.find m k = some v) : (k, v) ∈ m := by
  induction m with
  | nil => simp [SMap.find] at h
  | cons e r ih =>
    obtain ⟨j, w⟩ := e
    by_cases h2 : j = k
    · subst h2; simp [SMap.find] at h; simp [h]
    · simp [SMap.find, h2] at h; exact List.mem_cons_of_mem _ (ih h)

/-- What is listed under a key is found, or another value is. -/
theorem SMap.find_isSome_of_mem {m : SMap α} {k : Nat} {v : α} (h : (k, v) ∈ m) : (SMap.find m k).isSome = true := by
  induction m with
  | nil => simp at h
  | cons e r ih =>
    obtain ⟨j, w⟩ := e
    by_cases h2 : j = k
    · simp [SMap.find, h2]
    · simp [SMap.find, h2]; simp at h; rcases h with ⟨h3, _⟩ | h3
      · exact absurd h3.symm h2
      · exact ih h3

/-- A changed map lists the new pair and what it listed before. -/
theorem SMap.mem_set {m : SMap α} {k : Nat} {v : α} {e : Nat × α} (h : e ∈ SMap.set m k v) : e = (k, v) ∨ e ∈ m := by
  induction m with
  | nil => simp [SMap.set] at h; exact .inl h
  | cons x r ih =>
    obtain ⟨j, w⟩ := x
    by_cases h1 : k < j
    · simp [SMap.set, h1] at h; simp; grind
    · by_cases h2 : j = k
      · simp [SMap.set, h2] at h; simp; grind
      · simp [SMap.set, h1, h2] at h; simp; rcases h with h | h
        · grind
        · rcases ih h with h | h <;> grind

end Sys2Proof
end

