-- ==== Sys2Proof/Laws/Mem.lean ====
section
/-!
SUPPORT. Sys2Proof/Laws/Mem.lean: every memory operation keeps the canonical form, and what a byte reads as after it.
-/
namespace Sys2Proof.Machine

/-- The canonical form, said of the list as a whole. -/
theorem Mem.wf_iff (m : Mem) : m.wf = true ↔ m.Pairwise (fun a b => a.1 < b.1) ∧ ∀ e ∈ m, e.2 ≠ Mem.unlisted := by
  induction m with
  | nil => simp [Mem.wf]
  | cons e r ih =>
    obtain ⟨a, b⟩ := e
    cases r with
    | nil => simp [Mem.wf]
    | cons e2 r2 =>
      obtain ⟨a2, b2⟩ := e2
      simp only [Mem.wf, Bool.and_eq_true, bne_iff_ne, ne_eq, decide_eq_true_eq, ih, List.pairwise_cons, List.mem_cons]
      constructor
      · rintro ⟨⟨h1, h2⟩, ⟨h3, h4⟩, h5⟩
        refine ⟨⟨?_, h3, h4⟩, ?_⟩
        · rintro x (rfl | hx)
          · exact h2
          · exact Nat.lt_trans h2 (h3 x hx)
        · rintro x (rfl | hx)
          · exact h1
          · exact h5 x hx
      · rintro ⟨⟨h1, h2, h3⟩, h4⟩
        exact ⟨⟨h4 _ (.inl rfl), h1 _ (.inl rfl)⟩, ⟨h2, h3⟩, fun x hx => h4 x (.inr hx)⟩

theorem Mem.wf_nil : Mem.wf [] = true := rfl

/-- Entries left out keep the form. -/
theorem Mem.wf_filter {m : Mem} (p : Host.Cell → Bool) (h : m.wf = true) : Mem.wf (m.filter p) = true := by
  rw [Mem.wf_iff] at h ⊢
  exact ⟨h.1.filter p, fun e he => h.2 e (List.mem_filter.1 he).1⟩

/-- The cells of a run of bytes lie in it. -/
theorem Mem.cells_range {a : Nat} {bs : List Byte} {e : Host.Cell} (h : e ∈ Mem.cells a bs) :
    a ≤ e.1 ∧ e.1 < a + bs.length ∧ e.2 ≠ Mem.unlisted := by
  induction bs generalizing a with
  | nil => simp [Mem.cells] at h
  | cons b r ih =>
    rw [Mem.cells] at h
    split at h
    · have := ih h; simp only [List.length_cons]; exact ⟨by omega, by omega, this.2.2⟩
    · rename_i hb
      rcases List.mem_cons.1 h with rfl | h
      · simp [hb]
      · have := ih h; simp only [List.length_cons]; exact ⟨by omega, by omega, this.2.2⟩

/-- The cells of a run of bytes are in the form. -/
theorem Mem.wf_cells (a : Nat) (bs : List Byte) : Mem.wf (Mem.cells a bs) = true := by
  induction bs generalizing a with
  | nil => rfl
  | cons b r ih =>
    rw [Mem.cells]
    split
    · exact ih _
    · rename_i hb
      have h2 := (Mem.wf_iff _).1 (ih (a + 1))
      rw [Mem.wf_iff]
      refine ⟨List.pairwise_cons.2 ⟨fun e he => ?_, h2.1⟩, ?_⟩
      · have := Mem.cells_range he; show a < e.1; omega
      · intro e he
        rcases List.mem_cons.1 he with rfl | he
        · exact hb
        · exact h2.2 e he

/-- A range replaced by entries that lie in it keeps the form. -/
theorem Mem.wf_splice {m cs : Mem} {b n : Nat} (h : m.wf = true) (hc : cs.wf = true) (hr : ∀ e ∈ cs, b ≤ e.1 ∧ e.1 < b + n) :
    Mem.wf (Mem.splice m b n cs) = true := by
  have h1 := (Mem.wf_iff _).1 h
  have h2 := (Mem.wf_iff _).1 hc
  rw [Mem.wf_iff, Mem.splice]
  constructor
  · refine List.pairwise_append.2 ⟨List.pairwise_append.2 ⟨h1.1.filter _, h2.1, ?_⟩, h1.1.filter _, ?_⟩
    · intro x hx y hy
      have := (List.mem_filter.1 hx).2
      have := (hr y hy).1
      simp at *; omega
    · intro x hx y hy
      have hy2 := (List.mem_filter.1 hy).2
      rcases List.mem_append.1 hx with hx | hx
      · have := (List.mem_filter.1 hx).2; simp at *; omega
      · have := (hr x hx).2; simp at *; omega
  · intro e he
    rcases List.mem_append.1 he with he | he
    · rcases List.mem_append.1 he with he | he
      · exact h1.2 e (List.mem_filter.1 he).1
      · exact h2.2 e he
    · exact h1.2 e (List.mem_filter.1 he).1

/-- A write keeps the form. -/
theorem Mem.wf_write {m : Mem} (a : Nat) (bs : List Byte) (h : m.wf = true) : Mem.wf (Mem.write m a bs) = true :=
  Mem.wf_splice (b := a) (n := bs.length) h (Mem.wf_cells a bs) (fun _ he => ⟨(Mem.cells_range he).1, (Mem.cells_range he).2.1⟩)

/-- A partial write keeps the form. -/
theorem Mem.wf_writeSome {m : Mem} (a : Nat) (bs : List (Option Byte)) (h : m.wf = true) : Mem.wf (Mem.writeSome m a bs) = true :=
  Mem.wf_write _ _ h

/-- Zeroing keeps the form. -/
theorem Mem.wf_zero {m : Mem} (a n : Nat) (h : m.wf = true) : Mem.wf (Mem.zero m a n) = true := Mem.wf_filter _ h

/-- A range moved keeps the form, and lies where it is moved to. -/
theorem Mem.wf_window {m : Mem} (a n b : Nat) (h : m.wf = true) : Mem.wf (Mem.window m a n b) = true := by
  have h1 := (Mem.wf_iff _).1 (Mem.wf_filter (fun e => decide (a ≤ e.1) && decide (e.1 < a + n)) h)
  rw [Mem.wf_iff, Mem.window]
  constructor
  · rw [List.pairwise_map]
    refine h1.1.imp_of_mem ?_
    intro x y hx hy hxy
    have := (List.mem_filter.1 hx).2
    simp at *; omega
  · intro e he
    obtain ⟨x, hx, rfl⟩ := List.mem_map.1 he
    exact h1.2 x hx

theorem Mem.window_range {m : Mem} {a n b : Nat} {e : Host.Cell} (h : e ∈ Mem.window m a n b) : b ≤ e.1 ∧ e.1 < b + n := by
  obtain ⟨x, hx, rfl⟩ := List.mem_map.1 h
  have := (List.mem_filter.1 hx).2
  simp at *; omega

/-! ### Bytes -/

/-- A byte of two memories joined. -/
theorem Mem.byte_append (m n : Mem) (x : Nat) : Mem.byte (m ++ n) x = if ∃ e ∈ m, e.1 = x then Mem.byte m x else Mem.byte n x := by
  induction m with
  | nil => simp [Mem.byte]
  | cons e r ih =>
    obtain ⟨a, b⟩ := e
    by_cases h : a = x
    · simp [Mem.byte, SMap.getD, h]
    · simp only [Mem.byte] at ih
      simp [Mem.byte, SMap.getD, h, ih]

/-- A byte that the entries left out do not hold is as it was. -/
theorem Mem.byte_filter (m : Mem) (p : Nat → Bool) (x : Nat) :
    Mem.byte (m.filter (fun e => p e.1)) x = if p x = true then Mem.byte m x else Mem.unlisted := by
  induction m with
  | nil => simp [Mem.byte]
  | cons e r ih =>
    obtain ⟨a, b⟩ := e
    simp only [Mem.byte] at ih
    by_cases hp : p a = true
    · by_cases h : a = x
      · subst h; simp [Mem.byte, SMap.getD, hp]
      · simp [Mem.byte, SMap.getD, hp, h, ih]
    · by_cases h : a = x
      · subst h; simp [hp, Mem.byte, ih]
      · simp [Mem.byte, SMap.getD, hp, h, ih]

/-- A byte of a run of bytes. -/
theorem Mem.byte_cells (a : Nat) (bs : List Byte) (x : Nat) :
    Mem.byte (Mem.cells a bs) x = if a ≤ x then bs.getD (x - a) Mem.unlisted else Mem.unlisted := by
  induction bs generalizing a with
  | nil => simp [Mem.cells, Mem.byte]
  | cons b r ih =>
    rw [Mem.cells]
    by_cases hx : x = a
    · subst hx
      split
      · rename_i hb; rw [ih, if_neg (by omega)]; simp [hb]
      · simp [Mem.byte, SMap.getD]
    · have key : (if a + 1 ≤ x then r.getD (x - (a + 1)) Mem.unlisted else Mem.unlisted) =
          if a ≤ x then (b :: r).getD (x - a) Mem.unlisted else Mem.unlisted := by
        by_cases h : a ≤ x
        · have : x - a = (x - (a + 1)) + 1 := by omega
          rw [if_pos (by omega), if_pos h, this]; simp
        · rw [if_neg (by omega), if_neg h]
      split
      · rw [ih, key]
      · have hax : ¬ a = x := fun h => hx h.symm
        have h2 := ih (a + 1)
        rw [Mem.byte] at h2
        rw [Mem.byte, SMap.getD, if_neg hax, h2, key]

/-- A read after a write: the bytes written, and every other as it was. -/
theorem Mem.byte_write (m : Mem) (a : Nat) (bs : List Byte) (x : Nat) :
    Mem.byte (Mem.write m a bs) x = if a ≤ x ∧ x < a + bs.length then bs.getD (x - a) Mem.unlisted else Mem.byte m x := by
  have f1 : ∀ y, Mem.byte (m.filter (fun e => decide (e.1 < a))) y = if y < a then Mem.byte m y else Mem.unlisted := by
    intro y; have := Mem.byte_filter m (fun k => decide (k < a)) y; simpa using this
  have f2 : ∀ y, Mem.byte (m.filter (fun e => decide (a + bs.length ≤ e.1))) y =
      if a + bs.length ≤ y then Mem.byte m y else Mem.unlisted := by
    intro y; have := Mem.byte_filter m (fun k => decide (a + bs.length ≤ k)) y; simpa using this
  have none_ : ∀ (c : Mem) (y : Nat), (¬ ∃ e ∈ c, e.1 = y) → Mem.byte c y = Mem.unlisted := by
    intro c y h
    induction c with
    | nil => rfl
    | cons e r ih =>
      obtain ⟨k, b⟩ := e
      have h1 : k ≠ y := fun hk => h ⟨(k, b), by simp, hk⟩
      have := ih (fun ⟨e, he, hk⟩ => h ⟨e, List.mem_cons_of_mem _ he, hk⟩)
      simp only [Mem.byte] at this
      simp [Mem.byte, SMap.getD, h1, this]
  rw [Mem.write, Mem.byte_append]
  by_cases hlo : x < a
  · rw [if_neg (show ¬ (a ≤ x ∧ x < a + bs.length) by omega)]
    split
    · rw [Mem.byte_append]
      split
      · rw [f1]; simp [hlo]
      · rename_i h1 h2
        have := none_ _ _ h2
        rw [f1, if_pos hlo] at this
        rw [Mem.byte_cells, if_neg (by omega), this]
    · rename_i h1
      have h2 : ¬ ∃ e ∈ m.filter (fun e => decide (e.1 < a)), e.1 = x :=
        fun ⟨e, he, hk⟩ => h1 ⟨e, List.mem_append_left _ he, hk⟩
      have := none_ _ _ h2
      rw [f1, if_pos hlo] at this
      rw [f2, if_neg (by omega), this]
  · by_cases hin : x < a + bs.length
    · rw [if_pos (show a ≤ x ∧ x < a + bs.length from ⟨by omega, hin⟩)]
      split
      · rw [Mem.byte_append, if_neg, Mem.byte_cells, if_pos (by omega)]
        rintro ⟨e, he, hk⟩
        have := (List.mem_filter.1 he).2
        simp at this; omega
      · rename_i h1
        have h2 : ¬ ∃ e ∈ Mem.cells a bs, e.1 = x :=
          fun ⟨e, he, hk⟩ => h1 ⟨e, List.mem_append_right _ he, hk⟩
        have := none_ _ _ h2
        rw [Mem.byte_cells, if_pos (by omega)] at this
        rw [f2, if_neg (by omega), this]
    · rw [if_neg (show ¬ (a ≤ x ∧ x < a + bs.length) by omega), if_neg, f2, if_pos (by omega)]
      rintro ⟨e, he, hk⟩
      rcases List.mem_append.1 he with he | he
      · have := (List.mem_filter.1 he).2; simp at this; omega
      · have := Mem.cells_range he; omega

/-- A zeroed range reads as zero, and every other byte as it did. -/
theorem Mem.byte_zero (m : Mem) (a n x : Nat) :
    Mem.byte (Mem.zero m a n) x = if a ≤ x ∧ x < a + n then 0 else Mem.byte m x := by
  have := Mem.byte_filter m (fun k => decide (k < a) || decide (a + n ≤ k)) x
  rw [Mem.zero]
  simp only [this, Mem.unlisted]
  by_cases h : a ≤ x ∧ x < a + n
  · rw [if_pos h, if_neg]; simp; omega
  · rw [if_neg h, if_pos]; simp; omega

/-! ### Reading a run -/

/-- A walk reads the bytes one by one where nothing listed lies before it. -/
theorem Mem.walk_eq {m : Mem} {a : Nat} (n : Nat) (h : m.Pairwise (fun x y => x.1 < y.1)) (hlo : ∀ e ∈ m, a ≤ e.1) :
    Mem.walk m a n = (List.range n).map (fun i => Mem.byte m (a + i)) := by
  induction n generalizing m a with
  | zero => simp [Mem.walk]
  | succ n ih =>
    rw [List.range_succ_eq_map, List.map_cons, List.map_map]
    cases m with
    | nil => simp [Mem.walk, Mem.byte, List.replicate_succ, Function.comp_def, List.map_const']
    | cons e r =>
      obtain ⟨k, b⟩ := e
      have hr := List.pairwise_cons.1 h
      rw [Mem.walk]
      split
      · rename_i hk
        subst hk
        have h2 : ∀ e ∈ r, k + 1 ≤ e.1 := fun e he => hr.1 e he
        rw [ih hr.2 h2]
        refine List.cons_eq_cons.2 ⟨by simp [Mem.byte, SMap.getD], ?_⟩
        apply List.map_congr_left
        intro i _
        simp [Mem.byte, SMap.getD, Nat.add_comm, Nat.add_left_comm]
      · rename_i hk
        have hka := hlo (k, b) (by simp)
        have h2 : ∀ e ∈ (k, b) :: r, a + 1 ≤ e.1 := by
          intro e he
          rcases List.mem_cons.1 he with rfl | he
          · simp at *; omega
          · have := hr.1 e he; simp at *; omega
        rw [ih h h2]
        refine List.cons_eq_cons.2 ⟨?_, ?_⟩
        · have : ∀ e ∈ (k, b) :: r, e.1 ≠ a := fun e he => by have := h2 e he; omega
          have none_ : ∀ (c : Mem), (∀ e ∈ c, e.1 ≠ a) → Mem.byte c a = Mem.unlisted := by
            intro c hc
            induction c with
            | nil => rfl
            | cons e r ih2 =>
              obtain ⟨j, w⟩ := e
              have h1 : j ≠ a := hc (j, w) (by simp)
              have := ih2 (fun e he => hc e (List.mem_cons_of_mem _ he))
              simp only [Mem.byte] at this
              simp [Mem.byte, SMap.getD, h1, this]
          rw [Nat.add_zero, none_ _ this]
        · apply List.map_congr_left
          intro i _
          simp [Nat.add_comm, Nat.add_left_comm]

/-- A read answers the bytes of its range. -/
theorem Mem.read_eq {m : Mem} (h : m.wf = true) (a n : Nat) : Mem.read m a n = (List.range n).map (fun i => Mem.byte m (a + i)) := by
  have h1 := (Mem.wf_iff _).1 h
  rw [Mem.read, Mem.walk_eq n (h1.1.filter _) (fun e he => by have := (List.mem_filter.1 he).2; simp at this; omega)]
  apply List.map_congr_left
  intro i hi
  have := Mem.byte_filter m (fun k => decide (a ≤ k) && decide (k < a + n)) (a + i)
  rw [this, if_pos]
  have := List.mem_range.1 hi
  simp; omega

end Sys2Proof.Machine
end

