-- ==== Sys2Proof/Laws/State.lean ====
section
/-!
SUPPORT. Sys2Proof/Laws/State.lean: one lemma per field per update of the state, so that no proof unfolds a record update; and
what each update leaves to be read.
-/
namespace Sys2Proof.Machine
variable (s : State)


/-! ### State.setTile -/

@[simp] theorem State.setTile_pending (i : Nat) (x : Tile) : (s.setTile i x).pending = s.pending := rfl
@[simp] theorem State.setTile_now (i : Nat) (x : Tile) : (s.setTile i x).now = s.now := rfl
@[simp] theorem State.setTile_draws (i : Nat) (x : Tile) : (s.setTile i x).draws = s.draws := rfl
@[simp] theorem State.setTile_issues (i : Nat) (x : Tile) : (s.setTile i x).issues = s.issues := rfl
@[simp] theorem State.setTile_opSeq (i : Nat) (x : Tile) : (s.setTile i x).opSeq = s.opSeq := rfl
@[simp] theorem State.setTile_cmdSeq (i : Nat) (x : Tile) : (s.setTile i x).cmdSeq = s.cmdSeq := rfl
@[simp] theorem State.setTile_inflight (i : Nat) (x : Tile) : (s.setTile i x).inflight = s.inflight := rfl
@[simp] theorem State.setTile_acts (i : Nat) (x : Tile) : (s.setTile i x).acts = s.acts := rfl
@[simp] theorem State.setTile_tickAt (i : Nat) (x : Tile) : (s.setTile i x).tickAt = s.tickAt := rfl
@[simp] theorem State.setTile_taken (i : Nat) (x : Tile) : (s.setTile i x).taken = s.taken := rfl
@[simp] theorem State.setTile_tier1 (i : Nat) (x : Tile) : (s.setTile i x).tier1 = s.tier1 := rfl
@[simp] theorem State.setTile_tier2 (i : Nat) (x : Tile) : (s.setTile i x).tier2 = s.tier2 := rfl
@[simp] theorem State.setTile_hub (i : Nat) (x : Tile) : (s.setTile i x).hub = s.hub := rfl
@[simp] theorem State.setTile_ctls (i : Nat) (x : Tile) : (s.setTile i x).ctls = s.ctls := rfl
@[simp] theorem State.setTile_links (i : Nat) (x : Tile) : (s.setTile i x).links = s.links := rfl
@[simp] theorem State.setTile_routes (i : Nat) (x : Tile) : (s.setTile i x).routes = s.routes := rfl
@[simp] theorem State.setTile_parts (i : Nat) (x : Tile) : (s.setTile i x).parts = s.parts := rfl
@[simp] theorem State.setTile_images (i : Nat) (x : Tile) : (s.setTile i x).images = s.images := rfl
@[simp] theorem State.setTile_jobs (i : Nat) (x : Tile) : (s.setTile i x).jobs = s.jobs := rfl
@[simp] theorem State.setTile_plumb (i : Nat) (x : Tile) : (s.setTile i x).plumb = s.plumb := rfl
@[simp] theorem State.setTile_lostDies (i : Nat) (x : Tile) : (s.setTile i x).lostDies = s.lostDies := rfl
@[simp] theorem State.setTile_failed (i : Nat) (x : Tile) : (s.setTile i x).failed = s.failed := rfl
@[simp] theorem State.setTile_lossAt (i : Nat) (x : Tile) : (s.setTile i x).lossAt = s.lossAt := rfl
@[simp] theorem State.setTile_variantB (i : Nat) (x : Tile) : (s.setTile i x).variantB = s.variantB := rfl
@[simp] theorem State.setTile_number (i : Nat) (x : Tile) : (s.setTile i x).number = s.number := rfl
@[simp] theorem State.setTile_serial (i : Nat) (x : Tile) : (s.setTile i x).serial = s.serial := rfl
@[simp] theorem State.setTile_idHash (i : Nat) (x : Tile) : (s.setTile i x).idHash = s.idHash := rfl
@[simp] theorem State.setTile_firmware (i : Nat) (x : Tile) : (s.setTile i x).firmware = s.firmware := rfl
@[simp] theorem State.setTile_firmwareDigest (i : Nat) (x : Tile) : (s.setTile i x).firmwareDigest = s.firmwareDigest := rfl
@[simp] theorem State.setTile_quiescing (i : Nat) (x : Tile) : (s.setTile i x).quiescing = s.quiescing := rfl
@[simp] theorem State.setTile_quiesce (i : Nat) (x : Tile) : (s.setTile i x).quiesce = s.quiesce := rfl
@[simp] theorem State.setTile_inbox (i : Nat) (x : Tile) : (s.setTile i x).inbox = s.inbox := rfl
@[simp] theorem State.setTile_messages (i : Nat) (x : Tile) : (s.setTile i x).messages = s.messages := rfl
@[simp] theorem State.setTile_wins (i : Nat) (x : Tile) : (s.setTile i x).wins = s.wins := rfl
@[simp] theorem State.setTile_cmds (i : Nat) (x : Tile) : (s.setTile i x).cmds = s.cmds := rfl
@[simp] theorem State.setTile_passed (i : Nat) (x : Tile) : (s.setTile i x).passed = s.passed := rfl
@[simp] theorem State.setTile_regs (i : Nat) (x : Tile) : (s.setTile i x).regs = s.regs := rfl
@[simp] theorem State.setTile_conns (i : Nat) (x : Tile) : (s.setTile i x).conns = s.conns := rfl
@[simp] theorem State.setTile_connSeq (i : Nat) (x : Tile) : (s.setTile i x).connSeq = s.connSeq := rfl
@[simp] theorem State.setTile_requests (i : Nat) (x : Tile) : (s.setTile i x).requests = s.requests := rfl
@[simp] theorem State.setTile_budgets (i : Nat) (x : Tile) : (s.setTile i x).budgets = s.budgets := rfl
@[simp] theorem State.setTile_admissions (i : Nat) (x : Tile) : (s.setTile i x).admissions = s.admissions := rfl
@[simp] theorem State.setTile_store (i : Nat) (x : Tile) : (s.setTile i x).store = s.store := rfl
@[simp] theorem State.setTile_start (i : Nat) (x : Tile) : (s.setTile i x).start = s.start := rfl
@[simp] theorem State.setTile_power (i : Nat) (x : Tile) : (s.setTile i x).power = s.power := rfl
@[simp] theorem State.setTile_health (i : Nat) (x : Tile) : (s.setTile i x).health = s.health := rfl
@[simp] theorem State.setTile_drive (i : Nat) (x : Tile) : (s.setTile i x).drive = s.drive := rfl
@[simp] theorem State.setTile_catalogue (i : Nat) (x : Tile) : (s.setTile i x).catalogue = s.catalogue := rfl
@[simp] theorem State.setTile_sentParts (i : Nat) (x : Tile) : (s.setTile i x).sentParts = s.sentParts := rfl
@[simp] theorem State.setTile_switches (i : Nat) (x : Tile) : (s.setTile i x).switches = s.switches := rfl
@[simp] theorem State.setTile_switchLog (i : Nat) (x : Tile) : (s.setTile i x).switchLog = s.switchLog := rfl
@[simp] theorem State.setTile_log (i : Nat) (x : Tile) : (s.setTile i x).log = s.log := rfl
@[simp] theorem State.setTile_kept (i : Nat) (x : Tile) : (s.setTile i x).kept = s.kept := rfl
@[simp] theorem State.setTile_recordRoom (i : Nat) (x : Tile) : (s.setTile i x).recordRoom = s.recordRoom := rfl
@[simp] theorem State.setTile_clearing (i : Nat) (x : Tile) : (s.setTile i x).clearing = s.clearing := rfl
@[simp] theorem State.setTile_fills (i : Nat) (x : Tile) : (s.setTile i x).fills = s.fills := rfl

/-! ### State.updTile -/

@[simp] theorem State.updTile_pending (i : Nat) (f : Tile → Tile) : (s.updTile i f).pending = s.pending := rfl
@[simp] theorem State.updTile_now (i : Nat) (f : Tile → Tile) : (s.updTile i f).now = s.now := rfl
@[simp] theorem State.updTile_draws (i : Nat) (f : Tile → Tile) : (s.updTile i f).draws = s.draws := rfl
@[simp] theorem State.updTile_issues (i : Nat) (f : Tile → Tile) : (s.updTile i f).issues = s.issues := rfl
@[simp] theorem State.updTile_opSeq (i : Nat) (f : Tile → Tile) : (s.updTile i f).opSeq = s.opSeq := rfl
@[simp] theorem State.updTile_cmdSeq (i : Nat) (f : Tile → Tile) : (s.updTile i f).cmdSeq = s.cmdSeq := rfl
@[simp] theorem State.updTile_inflight (i : Nat) (f : Tile → Tile) : (s.updTile i f).inflight = s.inflight := rfl
@[simp] theorem State.updTile_acts (i : Nat) (f : Tile → Tile) : (s.updTile i f).acts = s.acts := rfl
@[simp] theorem State.updTile_tickAt (i : Nat) (f : Tile → Tile) : (s.updTile i f).tickAt = s.tickAt := rfl
@[simp] theorem State.updTile_taken (i : Nat) (f : Tile → Tile) : (s.updTile i f).taken = s.taken := rfl
@[simp] theorem State.updTile_tier1 (i : Nat) (f : Tile → Tile) : (s.updTile i f).tier1 = s.tier1 := rfl
@[simp] theorem State.updTile_tier2 (i : Nat) (f : Tile → Tile) : (s.updTile i f).tier2 = s.tier2 := rfl
@[simp] theorem State.updTile_hub (i : Nat) (f : Tile → Tile) : (s.updTile i f).hub = s.hub := rfl
@[simp] theorem State.updTile_ctls (i : Nat) (f : Tile → Tile) : (s.updTile i f).ctls = s.ctls := rfl
@[simp] theorem State.updTile_links (i : Nat) (f : Tile → Tile) : (s.updTile i f).links = s.links := rfl
@[simp] theorem State.updTile_routes (i : Nat) (f : Tile → Tile) : (s.updTile i f).routes = s.routes := rfl
@[simp] theorem State.updTile_parts (i : Nat) (f : Tile → Tile) : (s.updTile i f).parts = s.parts := rfl
@[simp] theorem State.updTile_images (i : Nat) (f : Tile → Tile) : (s.updTile i f).images = s.images := rfl
@[simp] theorem State.updTile_jobs (i : Nat) (f : Tile → Tile) : (s.updTile i f).jobs = s.jobs := rfl
@[simp] theorem State.updTile_plumb (i : Nat) (f : Tile → Tile) : (s.updTile i f).plumb = s.plumb := rfl
@[simp] theorem State.updTile_lostDies (i : Nat) (f : Tile → Tile) : (s.updTile i f).lostDies = s.lostDies := rfl
@[simp] theorem State.updTile_failed (i : Nat) (f : Tile → Tile) : (s.updTile i f).failed = s.failed := rfl
@[simp] theorem State.updTile_lossAt (i : Nat) (f : Tile → Tile) : (s.updTile i f).lossAt = s.lossAt := rfl
@[simp] theorem State.updTile_variantB (i : Nat) (f : Tile → Tile) : (s.updTile i f).variantB = s.variantB := rfl
@[simp] theorem State.updTile_number (i : Nat) (f : Tile → Tile) : (s.updTile i f).number = s.number := rfl
@[simp] theorem State.updTile_serial (i : Nat) (f : Tile → Tile) : (s.updTile i f).serial = s.serial := rfl
@[simp] theorem State.updTile_idHash (i : Nat) (f : Tile → Tile) : (s.updTile i f).idHash = s.idHash := rfl
@[simp] theorem State.updTile_firmware (i : Nat) (f : Tile → Tile) : (s.updTile i f).firmware = s.firmware := rfl
@[simp] theorem State.updTile_firmwareDigest (i : Nat) (f : Tile → Tile) : (s.updTile i f).firmwareDigest = s.firmwareDigest := rfl
@[simp] theorem State.updTile_quiescing (i : Nat) (f : Tile → Tile) : (s.updTile i f).quiescing = s.quiescing := rfl
@[simp] theorem State.updTile_quiesce (i : Nat) (f : Tile → Tile) : (s.updTile i f).quiesce = s.quiesce := rfl
@[simp] theorem State.updTile_inbox (i : Nat) (f : Tile → Tile) : (s.updTile i f).inbox = s.inbox := rfl
@[simp] theorem State.updTile_messages (i : Nat) (f : Tile → Tile) : (s.updTile i f).messages = s.messages := rfl
@[simp] theorem State.updTile_wins (i : Nat) (f : Tile → Tile) : (s.updTile i f).wins = s.wins := rfl
@[simp] theorem State.updTile_cmds (i : Nat) (f : Tile → Tile) : (s.updTile i f).cmds = s.cmds := rfl
@[simp] theorem State.updTile_passed (i : Nat) (f : Tile → Tile) : (s.updTile i f).passed = s.passed := rfl
@[simp] theorem State.updTile_regs (i : Nat) (f : Tile → Tile) : (s.updTile i f).regs = s.regs := rfl
@[simp] theorem State.updTile_conns (i : Nat) (f : Tile → Tile) : (s.updTile i f).conns = s.conns := rfl
@[simp] theorem State.updTile_connSeq (i : Nat) (f : Tile → Tile) : (s.updTile i f).connSeq = s.connSeq := rfl
@[simp] theorem State.updTile_requests (i : Nat) (f : Tile → Tile) : (s.updTile i f).requests = s.requests := rfl
@[simp] theorem State.updTile_budgets (i : Nat) (f : Tile → Tile) : (s.updTile i f).budgets = s.budgets := rfl
@[simp] theorem State.updTile_admissions (i : Nat) (f : Tile → Tile) : (s.updTile i f).admissions = s.admissions := rfl
@[simp] theorem State.updTile_store (i : Nat) (f : Tile → Tile) : (s.updTile i f).store = s.store := rfl
@[simp] theorem State.updTile_start (i : Nat) (f : Tile → Tile) : (s.updTile i f).start = s.start := rfl
@[simp] theorem State.updTile_power (i : Nat) (f : Tile → Tile) : (s.updTile i f).power = s.power := rfl
@[simp] theorem State.updTile_health (i : Nat) (f : Tile → Tile) : (s.updTile i f).health = s.health := rfl
@[simp] theorem State.updTile_drive (i : Nat) (f : Tile → Tile) : (s.updTile i f).drive = s.drive := rfl
@[simp] theorem State.updTile_catalogue (i : Nat) (f : Tile → Tile) : (s.updTile i f).catalogue = s.catalogue := rfl
@[simp] theorem State.updTile_sentParts (i : Nat) (f : Tile → Tile) : (s.updTile i f).sentParts = s.sentParts := rfl
@[simp] theorem State.updTile_switches (i : Nat) (f : Tile → Tile) : (s.updTile i f).switches = s.switches := rfl
@[simp] theorem State.updTile_switchLog (i : Nat) (f : Tile → Tile) : (s.updTile i f).switchLog = s.switchLog := rfl
@[simp] theorem State.updTile_log (i : Nat) (f : Tile → Tile) : (s.updTile i f).log = s.log := rfl
@[simp] theorem State.updTile_kept (i : Nat) (f : Tile → Tile) : (s.updTile i f).kept = s.kept := rfl
@[simp] theorem State.updTile_recordRoom (i : Nat) (f : Tile → Tile) : (s.updTile i f).recordRoom = s.recordRoom := rfl
@[simp] theorem State.updTile_clearing (i : Nat) (f : Tile → Tile) : (s.updTile i f).clearing = s.clearing := rfl
@[simp] theorem State.updTile_fills (i : Nat) (f : Tile → Tile) : (s.updTile i f).fills = s.fills := rfl

/-! ### State.setJob -/

@[simp] theorem State.setJob_pending (j : Nat) (x : Job) : (s.setJob j x).pending = s.pending := rfl
@[simp] theorem State.setJob_now (j : Nat) (x : Job) : (s.setJob j x).now = s.now := rfl
@[simp] theorem State.setJob_draws (j : Nat) (x : Job) : (s.setJob j x).draws = s.draws := rfl
@[simp] theorem State.setJob_issues (j : Nat) (x : Job) : (s.setJob j x).issues = s.issues := rfl
@[simp] theorem State.setJob_opSeq (j : Nat) (x : Job) : (s.setJob j x).opSeq = s.opSeq := rfl
@[simp] theorem State.setJob_cmdSeq (j : Nat) (x : Job) : (s.setJob j x).cmdSeq = s.cmdSeq := rfl
@[simp] theorem State.setJob_inflight (j : Nat) (x : Job) : (s.setJob j x).inflight = s.inflight := rfl
@[simp] theorem State.setJob_acts (j : Nat) (x : Job) : (s.setJob j x).acts = s.acts := rfl
@[simp] theorem State.setJob_tickAt (j : Nat) (x : Job) : (s.setJob j x).tickAt = s.tickAt := rfl
@[simp] theorem State.setJob_taken (j : Nat) (x : Job) : (s.setJob j x).taken = s.taken := rfl
@[simp] theorem State.setJob_tiles (j : Nat) (x : Job) : (s.setJob j x).tiles = s.tiles := rfl
@[simp] theorem State.setJob_tier1 (j : Nat) (x : Job) : (s.setJob j x).tier1 = s.tier1 := rfl
@[simp] theorem State.setJob_tier2 (j : Nat) (x : Job) : (s.setJob j x).tier2 = s.tier2 := rfl
@[simp] theorem State.setJob_hub (j : Nat) (x : Job) : (s.setJob j x).hub = s.hub := rfl
@[simp] theorem State.setJob_ctls (j : Nat) (x : Job) : (s.setJob j x).ctls = s.ctls := rfl
@[simp] theorem State.setJob_links (j : Nat) (x : Job) : (s.setJob j x).links = s.links := rfl
@[simp] theorem State.setJob_routes (j : Nat) (x : Job) : (s.setJob j x).routes = s.routes := rfl
@[simp] theorem State.setJob_parts (j : Nat) (x : Job) : (s.setJob j x).parts = s.parts := rfl
@[simp] theorem State.setJob_images (j : Nat) (x : Job) : (s.setJob j x).images = s.images := rfl
@[simp] theorem State.setJob_plumb (j : Nat) (x : Job) : (s.setJob j x).plumb = s.plumb := rfl
@[simp] theorem State.setJob_lostDies (j : Nat) (x : Job) : (s.setJob j x).lostDies = s.lostDies := rfl
@[simp] theorem State.setJob_failed (j : Nat) (x : Job) : (s.setJob j x).failed = s.failed := rfl
@[simp] theorem State.setJob_lossAt (j : Nat) (x : Job) : (s.setJob j x).lossAt = s.lossAt := rfl
@[simp] theorem State.setJob_variantB (j : Nat) (x : Job) : (s.setJob j x).variantB = s.variantB := rfl
@[simp] theorem State.setJob_number (j : Nat) (x : Job) : (s.setJob j x).number = s.number := rfl
@[simp] theorem State.setJob_serial (j : Nat) (x : Job) : (s.setJob j x).serial = s.serial := rfl
@[simp] theorem State.setJob_idHash (j : Nat) (x : Job) : (s.setJob j x).idHash = s.idHash := rfl
@[simp] theorem State.setJob_firmware (j : Nat) (x : Job) : (s.setJob j x).firmware = s.firmware := rfl
@[simp] theorem State.setJob_firmwareDigest (j : Nat) (x : Job) : (s.setJob j x).firmwareDigest = s.firmwareDigest := rfl
@[simp] theorem State.setJob_quiescing (j : Nat) (x : Job) : (s.setJob j x).quiescing = s.quiescing := rfl
@[simp] theorem State.setJob_quiesce (j : Nat) (x : Job) : (s.setJob j x).quiesce = s.quiesce := rfl
@[simp] theorem State.setJob_inbox (j : Nat) (x : Job) : (s.setJob j x).inbox = s.inbox := rfl
@[simp] theorem State.setJob_messages (j : Nat) (x : Job) : (s.setJob j x).messages = s.messages := rfl
@[simp] theorem State.setJob_wins (j : Nat) (x : Job) : (s.setJob j x).wins = s.wins := rfl
@[simp] theorem State.setJob_cmds (j : Nat) (x : Job) : (s.setJob j x).cmds = s.cmds := rfl
@[simp] theorem State.setJob_passed (j : Nat) (x : Job) : (s.setJob j x).passed = s.passed := rfl
@[simp] theorem State.setJob_regs (j : Nat) (x : Job) : (s.setJob j x).regs = s.regs := rfl
@[simp] theorem State.setJob_conns (j : Nat) (x : Job) : (s.setJob j x).conns = s.conns := rfl
@[simp] theorem State.setJob_connSeq (j : Nat) (x : Job) : (s.setJob j x).connSeq = s.connSeq := rfl
@[simp] theorem State.setJob_requests (j : Nat) (x : Job) : (s.setJob j x).requests = s.requests := rfl
@[simp] theorem State.setJob_budgets (j : Nat) (x : Job) : (s.setJob j x).budgets = s.budgets := rfl
@[simp] theorem State.setJob_admissions (j : Nat) (x : Job) : (s.setJob j x).admissions = s.admissions := rfl
@[simp] theorem State.setJob_store (j : Nat) (x : Job) : (s.setJob j x).store = s.store := rfl
@[simp] theorem State.setJob_start (j : Nat) (x : Job) : (s.setJob j x).start = s.start := rfl
@[simp] theorem State.setJob_power (j : Nat) (x : Job) : (s.setJob j x).power = s.power := rfl
@[simp] theorem State.setJob_health (j : Nat) (x : Job) : (s.setJob j x).health = s.health := rfl
@[simp] theorem State.setJob_drive (j : Nat) (x : Job) : (s.setJob j x).drive = s.drive := rfl
@[simp] theorem State.setJob_catalogue (j : Nat) (x : Job) : (s.setJob j x).catalogue = s.catalogue := rfl
@[simp] theorem State.setJob_sentParts (j : Nat) (x : Job) : (s.setJob j x).sentParts = s.sentParts := rfl
@[simp] theorem State.setJob_switches (j : Nat) (x : Job) : (s.setJob j x).switches = s.switches := rfl
@[simp] theorem State.setJob_switchLog (j : Nat) (x : Job) : (s.setJob j x).switchLog = s.switchLog := rfl
@[simp] theorem State.setJob_log (j : Nat) (x : Job) : (s.setJob j x).log = s.log := rfl
@[simp] theorem State.setJob_kept (j : Nat) (x : Job) : (s.setJob j x).kept = s.kept := rfl
@[simp] theorem State.setJob_recordRoom (j : Nat) (x : Job) : (s.setJob j x).recordRoom = s.recordRoom := rfl
@[simp] theorem State.setJob_clearing (j : Nat) (x : Job) : (s.setJob j x).clearing = s.clearing := rfl
@[simp] theorem State.setJob_fills (j : Nat) (x : Job) : (s.setJob j x).fills = s.fills := rfl

/-! ### State.updJob -/

@[simp] theorem State.updJob_pending (j : Nat) (f : Job → Job) : (s.updJob j f).pending = s.pending := by unfold State.updJob; split <;> rfl
@[simp] theorem State.updJob_now (j : Nat) (f : Job → Job) : (s.updJob j f).now = s.now := by unfold State.updJob; split <;> rfl
@[simp] theorem State.updJob_draws (j : Nat) (f : Job → Job) : (s.updJob j f).draws = s.draws := by unfold State.updJob; split <;> rfl
@[simp] theorem State.updJob_issues (j : Nat) (f : Job → Job) : (s.updJob j f).issues = s.issues := by unfold State.updJob; split <;> rfl
@[simp] theorem State.updJob_opSeq (j : Nat) (f : Job → Job) : (s.updJob j f).opSeq = s.opSeq := by unfold State.updJob; split <;> rfl
@[simp] theorem State.updJob_cmdSeq (j : Nat) (f : Job → Job) : (s.updJob j f).cmdSeq = s.cmdSeq := by unfold State.updJob; split <;> rfl
@[simp] theorem State.updJob_inflight (j : Nat) (f : Job → Job) : (s.updJob j f).inflight = s.inflight := by unfold State.updJob; split <;> rfl
@[simp] theorem State.updJob_acts (j : Nat) (f : Job → Job) : (s.updJob j f).acts = s.acts := by unfold State.updJob; split <;> rfl
@[simp] theorem State.updJob_tickAt (j : Nat) (f : Job → Job) : (s.updJob j f).tickAt = s.tickAt := by unfold State.updJob; split <;> rfl
@[simp] theorem State.updJob_taken (j : Nat) (f : Job → Job) : (s.updJob j f).taken = s.taken := by unfold State.updJob; split <;> rfl
@[simp] theorem State.updJob_tiles (j : Nat) (f : Job → Job) : (s.updJob j f).tiles = s.tiles := by unfold State.updJob; split <;> rfl
@[simp] theorem State.updJob_tier1 (j : Nat) (f : Job → Job) : (s.updJob j f).tier1 = s.tier1 := by unfold State.updJob; split <;> rfl
@[simp] theorem State.updJob_tier2 (j : Nat) (f : Job → Job) : (s.updJob j f).tier2 = s.tier2 := by unfold State.updJob; split <;> rfl
@[simp] theorem State.updJob_hub (j : Nat) (f : Job → Job) : (s.updJob j f).hub = s.hub := by unfold State.updJob; split <;> rfl
@[simp] theorem State.updJob_ctls (j : Nat) (f : Job → Job) : (s.updJob j f).ctls = s.ctls := by unfold State.updJob; split <;> rfl
@[simp] theorem State.updJob_links (j : Nat) (f : Job → Job) : (s.updJob j f).links = s.links := by unfold State.updJob; split <;> rfl
@[simp] theorem State.updJob_routes (j : Nat) (f : Job → Job) : (s.updJob j f).routes = s.routes := by unfold State.updJob; split <;> rfl
@[simp] theorem State.updJob_parts (j : Nat) (f : Job → Job) : (s.updJob j f).parts = s.parts := by unfold State.updJob; split <;> rfl
@[simp] theorem State.updJob_images (j : Nat) (f : Job → Job) : (s.updJob j f).images = s.images := by unfold State.updJob; split <;> rfl
@[simp] theorem State.updJob_plumb (j : Nat) (f : Job → Job) : (s.updJob j f).plumb = s.plumb := by unfold State.updJob; split <;> rfl
@[simp] theorem State.updJob_lostDies (j : Nat) (f : Job → Job) : (s.updJob j f).lostDies = s.lostDies := by unfold State.updJob; split <;> rfl
@[simp] theorem State.updJob_failed (j : Nat) (f : Job → Job) : (s.updJob j f).failed = s.failed := by unfold State.updJob; split <;> rfl
@[simp] theorem State.updJob_lossAt (j : Nat) (f : Job → Job) : (s.updJob j f).lossAt = s.lossAt := by unfold State.updJob; split <;> rfl
@[simp] theorem State.updJob_variantB (j : Nat) (f : Job → Job) : (s.updJob j f).variantB = s.variantB := by unfold State.updJob; split <;> rfl
@[simp] theorem State.updJob_number (j : Nat) (f : Job → Job) : (s.updJob j f).number = s.number := by unfold State.updJob; split <;> rfl
@[simp] theorem State.updJob_serial (j : Nat) (f : Job → Job) : (s.updJob j f).serial = s.serial := by unfold State.updJob; split <;> rfl
@[simp] theorem State.updJob_idHash (j : Nat) (f : Job → Job) : (s.updJob j f).idHash = s.idHash := by unfold State.updJob; split <;> rfl
@[simp] theorem State.updJob_firmware (j : Nat) (f : Job → Job) : (s.updJob j f).firmware = s.firmware := by unfold State.updJob; split <;> rfl
@[simp] theorem State.updJob_firmwareDigest (j : Nat) (f : Job → Job) : (s.updJob j f).firmwareDigest = s.firmwareDigest := by unfold State.updJob; split <;> rfl
@[simp] theorem State.updJob_quiescing (j : Nat) (f : Job → Job) : (s.updJob j f).quiescing = s.quiescing := by unfold State.updJob; split <;> rfl
@[simp] theorem State.updJob_quiesce (j : Nat) (f : Job → Job) : (s.updJob j f).quiesce = s.quiesce := by unfold State.updJob; split <;> rfl
@[simp] theorem State.updJob_inbox (j : Nat) (f : Job → Job) : (s.updJob j f).inbox = s.inbox := by unfold State.updJob; split <;> rfl
@[simp] theorem State.updJob_messages (j : Nat) (f : Job → Job) : (s.updJob j f).messages = s.messages := by unfold State.updJob; split <;> rfl
@[simp] theorem State.updJob_wins (j : Nat) (f : Job → Job) : (s.updJob j f).wins = s.wins := by unfold State.updJob; split <;> rfl
@[simp] theorem State.updJob_cmds (j : Nat) (f : Job → Job) : (s.updJob j f).cmds = s.cmds := by unfold State.updJob; split <;> rfl
@[simp] theorem State.updJob_passed (j : Nat) (f : Job → Job) : (s.updJob j f).passed = s.passed := by unfold State.updJob; split <;> rfl
@[simp] theorem State.updJob_regs (j : Nat) (f : Job → Job) : (s.updJob j f).regs = s.regs := by unfold State.updJob; split <;> rfl
@[simp] theorem State.updJob_conns (j : Nat) (f : Job → Job) : (s.updJob j f).conns = s.conns := by unfold State.updJob; split <;> rfl
@[simp] theorem State.updJob_connSeq (j : Nat) (f : Job → Job) : (s.updJob j f).connSeq = s.connSeq := by unfold State.updJob; split <;> rfl
@[simp] theorem State.updJob_requests (j : Nat) (f : Job → Job) : (s.updJob j f).requests = s.requests := by unfold State.updJob; split <;> rfl
@[simp] theorem State.updJob_budgets (j : Nat) (f : Job → Job) : (s.updJob j f).budgets = s.budgets := by unfold State.updJob; split <;> rfl
@[simp] theorem State.updJob_admissions (j : Nat) (f : Job → Job) : (s.updJob j f).admissions = s.admissions := by unfold State.updJob; split <;> rfl
@[simp] theorem State.updJob_store (j : Nat) (f : Job → Job) : (s.updJob j f).store = s.store := by unfold State.updJob; split <;> rfl
@[simp] theorem State.updJob_start (j : Nat) (f : Job → Job) : (s.updJob j f).start = s.start := by unfold State.updJob; split <;> rfl
@[simp] theorem State.updJob_power (j : Nat) (f : Job → Job) : (s.updJob j f).power = s.power := by unfold State.updJob; split <;> rfl
@[simp] theorem State.updJob_health (j : Nat) (f : Job → Job) : (s.updJob j f).health = s.health := by unfold State.updJob; split <;> rfl
@[simp] theorem State.updJob_drive (j : Nat) (f : Job → Job) : (s.updJob j f).drive = s.drive := by unfold State.updJob; split <;> rfl
@[simp] theorem State.updJob_catalogue (j : Nat) (f : Job → Job) : (s.updJob j f).catalogue = s.catalogue := by unfold State.updJob; split <;> rfl
@[simp] theorem State.updJob_sentParts (j : Nat) (f : Job → Job) : (s.updJob j f).sentParts = s.sentParts := by unfold State.updJob; split <;> rfl
@[simp] theorem State.updJob_switches (j : Nat) (f : Job → Job) : (s.updJob j f).switches = s.switches := by unfold State.updJob; split <;> rfl
@[simp] theorem State.updJob_switchLog (j : Nat) (f : Job → Job) : (s.updJob j f).switchLog = s.switchLog := by unfold State.updJob; split <;> rfl
@[simp] theorem State.updJob_log (j : Nat) (f : Job → Job) : (s.updJob j f).log = s.log := by unfold State.updJob; split <;> rfl
@[simp] theorem State.updJob_kept (j : Nat) (f : Job → Job) : (s.updJob j f).kept = s.kept := by unfold State.updJob; split <;> rfl
@[simp] theorem State.updJob_recordRoom (j : Nat) (f : Job → Job) : (s.updJob j f).recordRoom = s.recordRoom := by unfold State.updJob; split <;> rfl
@[simp] theorem State.updJob_clearing (j : Nat) (f : Job → Job) : (s.updJob j f).clearing = s.clearing := by unfold State.updJob; split <;> rfl
@[simp] theorem State.updJob_fills (j : Nat) (f : Job → Job) : (s.updJob j f).fills = s.fills := by unfold State.updJob; split <;> rfl

/-! ### State.updServe -/

@[simp] theorem State.updServe_pending (j : Nat) (f : Serve → Serve) : (s.updServe j f).pending = s.pending := by simp [State.updServe]
@[simp] theorem State.updServe_now (j : Nat) (f : Serve → Serve) : (s.updServe j f).now = s.now := by simp [State.updServe]
@[simp] theorem State.updServe_draws (j : Nat) (f : Serve → Serve) : (s.updServe j f).draws = s.draws := by simp [State.updServe]
@[simp] theorem State.updServe_issues (j : Nat) (f : Serve → Serve) : (s.updServe j f).issues = s.issues := by simp [State.updServe]
@[simp] theorem State.updServe_opSeq (j : Nat) (f : Serve → Serve) : (s.updServe j f).opSeq = s.opSeq := by simp [State.updServe]
@[simp] theorem State.updServe_cmdSeq (j : Nat) (f : Serve → Serve) : (s.updServe j f).cmdSeq = s.cmdSeq := by simp [State.updServe]
@[simp] theorem State.updServe_inflight (j : Nat) (f : Serve → Serve) : (s.updServe j f).inflight = s.inflight := by simp [State.updServe]
@[simp] theorem State.updServe_acts (j : Nat) (f : Serve → Serve) : (s.updServe j f).acts = s.acts := by simp [State.updServe]
@[simp] theorem State.updServe_tickAt (j : Nat) (f : Serve → Serve) : (s.updServe j f).tickAt = s.tickAt := by simp [State.updServe]
@[simp] theorem State.updServe_taken (j : Nat) (f : Serve → Serve) : (s.updServe j f).taken = s.taken := by simp [State.updServe]
@[simp] theorem State.updServe_tiles (j : Nat) (f : Serve → Serve) : (s.updServe j f).tiles = s.tiles := by simp [State.updServe]
@[simp] theorem State.updServe_tier1 (j : Nat) (f : Serve → Serve) : (s.updServe j f).tier1 = s.tier1 := by simp [State.updServe]
@[simp] theorem State.updServe_tier2 (j : Nat) (f : Serve → Serve) : (s.updServe j f).tier2 = s.tier2 := by simp [State.updServe]
@[simp] theorem State.updServe_hub (j : Nat) (f : Serve → Serve) : (s.updServe j f).hub = s.hub := by simp [State.updServe]
@[simp] theorem State.updServe_ctls (j : Nat) (f : Serve → Serve) : (s.updServe j f).ctls = s.ctls := by simp [State.updServe]
@[simp] theorem State.updServe_links (j : Nat) (f : Serve → Serve) : (s.updServe j f).links = s.links := by simp [State.updServe]
@[simp] theorem State.updServe_routes (j : Nat) (f : Serve → Serve) : (s.updServe j f).routes = s.routes := by simp [State.updServe]
@[simp] theorem State.updServe_parts (j : Nat) (f : Serve → Serve) : (s.updServe j f).parts = s.parts := by simp [State.updServe]
@[simp] theorem State.updServe_images (j : Nat) (f : Serve → Serve) : (s.updServe j f).images = s.images := by simp [State.updServe]
@[simp] theorem State.updServe_plumb (j : Nat) (f : Serve → Serve) : (s.updServe j f).plumb = s.plumb := by simp [State.updServe]
@[simp] theorem State.updServe_lostDies (j : Nat) (f : Serve → Serve) : (s.updServe j f).lostDies = s.lostDies := by simp [State.updServe]
@[simp] theorem State.updServe_failed (j : Nat) (f : Serve → Serve) : (s.updServe j f).failed = s.failed := by simp [State.updServe]
@[simp] theorem State.updServe_lossAt (j : Nat) (f : Serve → Serve) : (s.updServe j f).lossAt = s.lossAt := by simp [State.updServe]
@[simp] theorem State.updServe_variantB (j : Nat) (f : Serve → Serve) : (s.updServe j f).variantB = s.variantB := by simp [State.updServe]
@[simp] theorem State.updServe_number (j : Nat) (f : Serve → Serve) : (s.updServe j f).number = s.number := by simp [State.updServe]
@[simp] theorem State.updServe_serial (j : Nat) (f : Serve → Serve) : (s.updServe j f).serial = s.serial := by simp [State.updServe]
@[simp] theorem State.updServe_idHash (j : Nat) (f : Serve → Serve) : (s.updServe j f).idHash = s.idHash := by simp [State.updServe]
@[simp] theorem State.updServe_firmware (j : Nat) (f : Serve → Serve) : (s.updServe j f).firmware = s.firmware := by simp [State.updServe]
@[simp] theorem State.updServe_firmwareDigest (j : Nat) (f : Serve → Serve) : (s.updServe j f).firmwareDigest = s.firmwareDigest := by simp [State.updServe]
@[simp] theorem State.updServe_quiescing (j : Nat) (f : Serve → Serve) : (s.updServe j f).quiescing = s.quiescing := by simp [State.updServe]
@[simp] theorem State.updServe_quiesce (j : Nat) (f : Serve → Serve) : (s.updServe j f).quiesce = s.quiesce := by simp [State.updServe]
@[simp] theorem State.updServe_inbox (j : Nat) (f : Serve → Serve) : (s.updServe j f).inbox = s.inbox := by simp [State.updServe]
@[simp] theorem State.updServe_messages (j : Nat) (f : Serve → Serve) : (s.updServe j f).messages = s.messages := by simp [State.updServe]
@[simp] theorem State.updServe_wins (j : Nat) (f : Serve → Serve) : (s.updServe j f).wins = s.wins := by simp [State.updServe]
@[simp] theorem State.updServe_cmds (j : Nat) (f : Serve → Serve) : (s.updServe j f).cmds = s.cmds := by simp [State.updServe]
@[simp] theorem State.updServe_passed (j : Nat) (f : Serve → Serve) : (s.updServe j f).passed = s.passed := by simp [State.updServe]
@[simp] theorem State.updServe_regs (j : Nat) (f : Serve → Serve) : (s.updServe j f).regs = s.regs := by simp [State.updServe]
@[simp] theorem State.updServe_conns (j : Nat) (f : Serve → Serve) : (s.updServe j f).conns = s.conns := by simp [State.updServe]
@[simp] theorem State.updServe_connSeq (j : Nat) (f : Serve → Serve) : (s.updServe j f).connSeq = s.connSeq := by simp [State.updServe]
@[simp] theorem State.updServe_requests (j : Nat) (f : Serve → Serve) : (s.updServe j f).requests = s.requests := by simp [State.updServe]
@[simp] theorem State.updServe_budgets (j : Nat) (f : Serve → Serve) : (s.updServe j f).budgets = s.budgets := by simp [State.updServe]
@[simp] theorem State.updServe_admissions (j : Nat) (f : Serve → Serve) : (s.updServe j f).admissions = s.admissions := by simp [State.updServe]
@[simp] theorem State.updServe_store (j : Nat) (f : Serve → Serve) : (s.updServe j f).store = s.store := by simp [State.updServe]
@[simp] theorem State.updServe_start (j : Nat) (f : Serve → Serve) : (s.updServe j f).start = s.start := by simp [State.updServe]
@[simp] theorem State.updServe_power (j : Nat) (f : Serve → Serve) : (s.updServe j f).power = s.power := by simp [State.updServe]
@[simp] theorem State.updServe_health (j : Nat) (f : Serve → Serve) : (s.updServe j f).health = s.health := by simp [State.updServe]
@[simp] theorem State.updServe_drive (j : Nat) (f : Serve → Serve) : (s.updServe j f).drive = s.drive := by simp [State.updServe]
@[simp] theorem State.updServe_catalogue (j : Nat) (f : Serve → Serve) : (s.updServe j f).catalogue = s.catalogue := by simp [State.updServe]
@[simp] theorem State.updServe_sentParts (j : Nat) (f : Serve → Serve) : (s.updServe j f).sentParts = s.sentParts := by simp [State.updServe]
@[simp] theorem State.updServe_switches (j : Nat) (f : Serve → Serve) : (s.updServe j f).switches = s.switches := by simp [State.updServe]
@[simp] theorem State.updServe_switchLog (j : Nat) (f : Serve → Serve) : (s.updServe j f).switchLog = s.switchLog := by simp [State.updServe]
@[simp] theorem State.updServe_log (j : Nat) (f : Serve → Serve) : (s.updServe j f).log = s.log := by simp [State.updServe]
@[simp] theorem State.updServe_kept (j : Nat) (f : Serve → Serve) : (s.updServe j f).kept = s.kept := by simp [State.updServe]
@[simp] theorem State.updServe_recordRoom (j : Nat) (f : Serve → Serve) : (s.updServe j f).recordRoom = s.recordRoom := by simp [State.updServe]
@[simp] theorem State.updServe_clearing (j : Nat) (f : Serve → Serve) : (s.updServe j f).clearing = s.clearing := by simp [State.updServe]
@[simp] theorem State.updServe_fills (j : Nat) (f : Serve → Serve) : (s.updServe j f).fills = s.fills := by simp [State.updServe]

/-! ### State.updPool -/

@[simp] theorem State.updPool_pending (j : Nat) (f : Serve → Serve) : (s.updPool j f).pending = s.pending := by simp [State.updPool, State.sharePool]
@[simp] theorem State.updPool_now (j : Nat) (f : Serve → Serve) : (s.updPool j f).now = s.now := by simp [State.updPool, State.sharePool]
@[simp] theorem State.updPool_draws (j : Nat) (f : Serve → Serve) : (s.updPool j f).draws = s.draws := by simp [State.updPool, State.sharePool]
@[simp] theorem State.updPool_issues (j : Nat) (f : Serve → Serve) : (s.updPool j f).issues = s.issues := by simp [State.updPool, State.sharePool]
@[simp] theorem State.updPool_opSeq (j : Nat) (f : Serve → Serve) : (s.updPool j f).opSeq = s.opSeq := by simp [State.updPool, State.sharePool]
@[simp] theorem State.updPool_cmdSeq (j : Nat) (f : Serve → Serve) : (s.updPool j f).cmdSeq = s.cmdSeq := by simp [State.updPool, State.sharePool]
@[simp] theorem State.updPool_inflight (j : Nat) (f : Serve → Serve) : (s.updPool j f).inflight = s.inflight := by simp [State.updPool, State.sharePool]
@[simp] theorem State.updPool_acts (j : Nat) (f : Serve → Serve) : (s.updPool j f).acts = s.acts := by simp [State.updPool, State.sharePool]
@[simp] theorem State.updPool_tickAt (j : Nat) (f : Serve → Serve) : (s.updPool j f).tickAt = s.tickAt := by simp [State.updPool, State.sharePool]
@[simp] theorem State.updPool_taken (j : Nat) (f : Serve → Serve) : (s.updPool j f).taken = s.taken := by simp [State.updPool, State.sharePool]
@[simp] theorem State.updPool_tiles (j : Nat) (f : Serve → Serve) : (s.updPool j f).tiles = s.tiles := by simp [State.updPool, State.sharePool]
@[simp] theorem State.updPool_tier1 (j : Nat) (f : Serve → Serve) : (s.updPool j f).tier1 = s.tier1 := by simp [State.updPool, State.sharePool]
@[simp] theorem State.updPool_tier2 (j : Nat) (f : Serve → Serve) : (s.updPool j f).tier2 = s.tier2 := by simp [State.updPool, State.sharePool]
@[simp] theorem State.updPool_hub (j : Nat) (f : Serve → Serve) : (s.updPool j f).hub = s.hub := by simp [State.updPool, State.sharePool]
@[simp] theorem State.updPool_ctls (j : Nat) (f : Serve → Serve) : (s.updPool j f).ctls = s.ctls := by simp [State.updPool, State.sharePool]
@[simp] theorem State.updPool_links (j : Nat) (f : Serve → Serve) : (s.updPool j f).links = s.links := by simp [State.updPool, State.sharePool]
@[simp] theorem State.updPool_routes (j : Nat) (f : Serve → Serve) : (s.updPool j f).routes = s.routes := by simp [State.updPool, State.sharePool]
@[simp] theorem State.updPool_parts (j : Nat) (f : Serve → Serve) : (s.updPool j f).parts = s.parts := by simp [State.updPool, State.sharePool]
@[simp] theorem State.updPool_images (j : Nat) (f : Serve → Serve) : (s.updPool j f).images = s.images := by simp [State.updPool, State.sharePool]
@[simp] theorem State.updPool_plumb (j : Nat) (f : Serve → Serve) : (s.updPool j f).plumb = s.plumb := by simp [State.updPool, State.sharePool]
@[simp] theorem State.updPool_lostDies (j : Nat) (f : Serve → Serve) : (s.updPool j f).lostDies = s.lostDies := by simp [State.updPool, State.sharePool]
@[simp] theorem State.updPool_failed (j : Nat) (f : Serve → Serve) : (s.updPool j f).failed = s.failed := by simp [State.updPool, State.sharePool]
@[simp] theorem State.updPool_lossAt (j : Nat) (f : Serve → Serve) : (s.updPool j f).lossAt = s.lossAt := by simp [State.updPool, State.sharePool]
@[simp] theorem State.updPool_variantB (j : Nat) (f : Serve → Serve) : (s.updPool j f).variantB = s.variantB := by simp [State.updPool, State.sharePool]
@[simp] theorem State.updPool_number (j : Nat) (f : Serve → Serve) : (s.updPool j f).number = s.number := by simp [State.updPool, State.sharePool]
@[simp] theorem State.updPool_serial (j : Nat) (f : Serve → Serve) : (s.updPool j f).serial = s.serial := by simp [State.updPool, State.sharePool]
@[simp] theorem State.updPool_idHash (j : Nat) (f : Serve → Serve) : (s.updPool j f).idHash = s.idHash := by simp [State.updPool, State.sharePool]
@[simp] theorem State.updPool_firmware (j : Nat) (f : Serve → Serve) : (s.updPool j f).firmware = s.firmware := by simp [State.updPool, State.sharePool]
@[simp] theorem State.updPool_firmwareDigest (j : Nat) (f : Serve → Serve) : (s.updPool j f).firmwareDigest = s.firmwareDigest := by simp [State.updPool, State.sharePool]
@[simp] theorem State.updPool_quiescing (j : Nat) (f : Serve → Serve) : (s.updPool j f).quiescing = s.quiescing := by simp [State.updPool, State.sharePool]
@[simp] theorem State.updPool_quiesce (j : Nat) (f : Serve → Serve) : (s.updPool j f).quiesce = s.quiesce := by simp [State.updPool, State.sharePool]
@[simp] theorem State.updPool_inbox (j : Nat) (f : Serve → Serve) : (s.updPool j f).inbox = s.inbox := by simp [State.updPool, State.sharePool]
@[simp] theorem State.updPool_messages (j : Nat) (f : Serve → Serve) : (s.updPool j f).messages = s.messages := by simp [State.updPool, State.sharePool]
@[simp] theorem State.updPool_wins (j : Nat) (f : Serve → Serve) : (s.updPool j f).wins = s.wins := by simp [State.updPool, State.sharePool]
@[simp] theorem State.updPool_cmds (j : Nat) (f : Serve → Serve) : (s.updPool j f).cmds = s.cmds := by simp [State.updPool, State.sharePool]
@[simp] theorem State.updPool_passed (j : Nat) (f : Serve → Serve) : (s.updPool j f).passed = s.passed := by simp [State.updPool, State.sharePool]
@[simp] theorem State.updPool_regs (j : Nat) (f : Serve → Serve) : (s.updPool j f).regs = s.regs := by simp [State.updPool, State.sharePool]
@[simp] theorem State.updPool_conns (j : Nat) (f : Serve → Serve) : (s.updPool j f).conns = s.conns := by simp [State.updPool, State.sharePool]
@[simp] theorem State.updPool_connSeq (j : Nat) (f : Serve → Serve) : (s.updPool j f).connSeq = s.connSeq := by simp [State.updPool, State.sharePool]
@[simp] theorem State.updPool_requests (j : Nat) (f : Serve → Serve) : (s.updPool j f).requests = s.requests := by simp [State.updPool, State.sharePool]
@[simp] theorem State.updPool_budgets (j : Nat) (f : Serve → Serve) : (s.updPool j f).budgets = s.budgets := by simp [State.updPool, State.sharePool]
@[simp] theorem State.updPool_admissions (j : Nat) (f : Serve → Serve) : (s.updPool j f).admissions = s.admissions := by simp [State.updPool, State.sharePool]
@[simp] theorem State.updPool_store (j : Nat) (f : Serve → Serve) : (s.updPool j f).store = s.store := by simp [State.updPool, State.sharePool]
@[simp] theorem State.updPool_start (j : Nat) (f : Serve → Serve) : (s.updPool j f).start = s.start := by simp [State.updPool, State.sharePool]
@[simp] theorem State.updPool_power (j : Nat) (f : Serve → Serve) : (s.updPool j f).power = s.power := by simp [State.updPool, State.sharePool]
@[simp] theorem State.updPool_health (j : Nat) (f : Serve → Serve) : (s.updPool j f).health = s.health := by simp [State.updPool, State.sharePool]
@[simp] theorem State.updPool_drive (j : Nat) (f : Serve → Serve) : (s.updPool j f).drive = s.drive := by simp [State.updPool, State.sharePool]
@[simp] theorem State.updPool_catalogue (j : Nat) (f : Serve → Serve) : (s.updPool j f).catalogue = s.catalogue := by simp [State.updPool, State.sharePool]
@[simp] theorem State.updPool_sentParts (j : Nat) (f : Serve → Serve) : (s.updPool j f).sentParts = s.sentParts := by simp [State.updPool, State.sharePool]
@[simp] theorem State.updPool_switches (j : Nat) (f : Serve → Serve) : (s.updPool j f).switches = s.switches := by simp [State.updPool, State.sharePool]
@[simp] theorem State.updPool_switchLog (j : Nat) (f : Serve → Serve) : (s.updPool j f).switchLog = s.switchLog := by simp [State.updPool, State.sharePool]
@[simp] theorem State.updPool_log (j : Nat) (f : Serve → Serve) : (s.updPool j f).log = s.log := by simp [State.updPool, State.sharePool]
@[simp] theorem State.updPool_kept (j : Nat) (f : Serve → Serve) : (s.updPool j f).kept = s.kept := by simp [State.updPool, State.sharePool]
@[simp] theorem State.updPool_recordRoom (j : Nat) (f : Serve → Serve) : (s.updPool j f).recordRoom = s.recordRoom := by simp [State.updPool, State.sharePool]
@[simp] theorem State.updPool_clearing (j : Nat) (f : Serve → Serve) : (s.updPool j f).clearing = s.clearing := by simp [State.updPool, State.sharePool]
@[simp] theorem State.updPool_fills (j : Nat) (f : Serve → Serve) : (s.updPool j f).fills = s.fills := by simp [State.updPool, State.sharePool]

/-! ### State.updRun -/

@[simp] theorem State.updRun_pending (j : Nat) (f : StepRun → StepRun) : (s.updRun j f).pending = s.pending := by simp [State.updRun]
@[simp] theorem State.updRun_now (j : Nat) (f : StepRun → StepRun) : (s.updRun j f).now = s.now := by simp [State.updRun]
@[simp] theorem State.updRun_draws (j : Nat) (f : StepRun → StepRun) : (s.updRun j f).draws = s.draws := by simp [State.updRun]
@[simp] theorem State.updRun_issues (j : Nat) (f : StepRun → StepRun) : (s.updRun j f).issues = s.issues := by simp [State.updRun]
@[simp] theorem State.updRun_opSeq (j : Nat) (f : StepRun → StepRun) : (s.updRun j f).opSeq = s.opSeq := by simp [State.updRun]
@[simp] theorem State.updRun_cmdSeq (j : Nat) (f : StepRun → StepRun) : (s.updRun j f).cmdSeq = s.cmdSeq := by simp [State.updRun]
@[simp] theorem State.updRun_inflight (j : Nat) (f : StepRun → StepRun) : (s.updRun j f).inflight = s.inflight := by simp [State.updRun]
@[simp] theorem State.updRun_acts (j : Nat) (f : StepRun → StepRun) : (s.updRun j f).acts = s.acts := by simp [State.updRun]
@[simp] theorem State.updRun_tickAt (j : Nat) (f : StepRun → StepRun) : (s.updRun j f).tickAt = s.tickAt := by simp [State.updRun]
@[simp] theorem State.updRun_taken (j : Nat) (f : StepRun → StepRun) : (s.updRun j f).taken = s.taken := by simp [State.updRun]
@[simp] theorem State.updRun_tiles (j : Nat) (f : StepRun → StepRun) : (s.updRun j f).tiles = s.tiles := by simp [State.updRun]
@[simp] theorem State.updRun_tier1 (j : Nat) (f : StepRun → StepRun) : (s.updRun j f).tier1 = s.tier1 := by simp [State.updRun]
@[simp] theorem State.updRun_tier2 (j : Nat) (f : StepRun → StepRun) : (s.updRun j f).tier2 = s.tier2 := by simp [State.updRun]
@[simp] theorem State.updRun_hub (j : Nat) (f : StepRun → StepRun) : (s.updRun j f).hub = s.hub := by simp [State.updRun]
@[simp] theorem State.updRun_ctls (j : Nat) (f : StepRun → StepRun) : (s.updRun j f).ctls = s.ctls := by simp [State.updRun]
@[simp] theorem State.updRun_links (j : Nat) (f : StepRun → StepRun) : (s.updRun j f).links = s.links := by simp [State.updRun]
@[simp] theorem State.updRun_routes (j : Nat) (f : StepRun → StepRun) : (s.updRun j f).routes = s.routes := by simp [State.updRun]
@[simp] theorem State.updRun_parts (j : Nat) (f : StepRun → StepRun) : (s.updRun j f).parts = s.parts := by simp [State.updRun]
@[simp] theorem State.updRun_images (j : Nat) (f : StepRun → StepRun) : (s.updRun j f).images = s.images := by simp [State.updRun]
@[simp] theorem State.updRun_plumb (j : Nat) (f : StepRun → StepRun) : (s.updRun j f).plumb = s.plumb := by simp [State.updRun]
@[simp] theorem State.updRun_lostDies (j : Nat) (f : StepRun → StepRun) : (s.updRun j f).lostDies = s.lostDies := by simp [State.updRun]
@[simp] theorem State.updRun_failed (j : Nat) (f : StepRun → StepRun) : (s.updRun j f).failed = s.failed := by simp [State.updRun]
@[simp] theorem State.updRun_lossAt (j : Nat) (f : StepRun → StepRun) : (s.updRun j f).lossAt = s.lossAt := by simp [State.updRun]
@[simp] theorem State.updRun_variantB (j : Nat) (f : StepRun → StepRun) : (s.updRun j f).variantB = s.variantB := by simp [State.updRun]
@[simp] theorem State.updRun_number (j : Nat) (f : StepRun → StepRun) : (s.updRun j f).number = s.number := by simp [State.updRun]
@[simp] theorem State.updRun_serial (j : Nat) (f : StepRun → StepRun) : (s.updRun j f).serial = s.serial := by simp [State.updRun]
@[simp] theorem State.updRun_idHash (j : Nat) (f : StepRun → StepRun) : (s.updRun j f).idHash = s.idHash := by simp [State.updRun]
@[simp] theorem State.updRun_firmware (j : Nat) (f : StepRun → StepRun) : (s.updRun j f).firmware = s.firmware := by simp [State.updRun]
@[simp] theorem State.updRun_firmwareDigest (j : Nat) (f : StepRun → StepRun) : (s.updRun j f).firmwareDigest = s.firmwareDigest := by simp [State.updRun]
@[simp] theorem State.updRun_quiescing (j : Nat) (f : StepRun → StepRun) : (s.updRun j f).quiescing = s.quiescing := by simp [State.updRun]
@[simp] theorem State.updRun_quiesce (j : Nat) (f : StepRun → StepRun) : (s.updRun j f).quiesce = s.quiesce := by simp [State.updRun]
@[simp] theorem State.updRun_inbox (j : Nat) (f : StepRun → StepRun) : (s.updRun j f).inbox = s.inbox := by simp [State.updRun]
@[simp] theorem State.updRun_messages (j : Nat) (f : StepRun → StepRun) : (s.updRun j f).messages = s.messages := by simp [State.updRun]
@[simp] theorem State.updRun_wins (j : Nat) (f : StepRun → StepRun) : (s.updRun j f).wins = s.wins := by simp [State.updRun]
@[simp] theorem State.updRun_cmds (j : Nat) (f : StepRun → StepRun) : (s.updRun j f).cmds = s.cmds := by simp [State.updRun]
@[simp] theorem State.updRun_passed (j : Nat) (f : StepRun → StepRun) : (s.updRun j f).passed = s.passed := by simp [State.updRun]
@[simp] theorem State.updRun_regs (j : Nat) (f : StepRun → StepRun) : (s.updRun j f).regs = s.regs := by simp [State.updRun]
@[simp] theorem State.updRun_conns (j : Nat) (f : StepRun → StepRun) : (s.updRun j f).conns = s.conns := by simp [State.updRun]
@[simp] theorem State.updRun_connSeq (j : Nat) (f : StepRun → StepRun) : (s.updRun j f).connSeq = s.connSeq := by simp [State.updRun]
@[simp] theorem State.updRun_requests (j : Nat) (f : StepRun → StepRun) : (s.updRun j f).requests = s.requests := by simp [State.updRun]
@[simp] theorem State.updRun_budgets (j : Nat) (f : StepRun → StepRun) : (s.updRun j f).budgets = s.budgets := by simp [State.updRun]
@[simp] theorem State.updRun_admissions (j : Nat) (f : StepRun → StepRun) : (s.updRun j f).admissions = s.admissions := by simp [State.updRun]
@[simp] theorem State.updRun_store (j : Nat) (f : StepRun → StepRun) : (s.updRun j f).store = s.store := by simp [State.updRun]
@[simp] theorem State.updRun_start (j : Nat) (f : StepRun → StepRun) : (s.updRun j f).start = s.start := by simp [State.updRun]
@[simp] theorem State.updRun_power (j : Nat) (f : StepRun → StepRun) : (s.updRun j f).power = s.power := by simp [State.updRun]
@[simp] theorem State.updRun_health (j : Nat) (f : StepRun → StepRun) : (s.updRun j f).health = s.health := by simp [State.updRun]
@[simp] theorem State.updRun_drive (j : Nat) (f : StepRun → StepRun) : (s.updRun j f).drive = s.drive := by simp [State.updRun]
@[simp] theorem State.updRun_catalogue (j : Nat) (f : StepRun → StepRun) : (s.updRun j f).catalogue = s.catalogue := by simp [State.updRun]
@[simp] theorem State.updRun_sentParts (j : Nat) (f : StepRun → StepRun) : (s.updRun j f).sentParts = s.sentParts := by simp [State.updRun]
@[simp] theorem State.updRun_switches (j : Nat) (f : StepRun → StepRun) : (s.updRun j f).switches = s.switches := by simp [State.updRun]
@[simp] theorem State.updRun_switchLog (j : Nat) (f : StepRun → StepRun) : (s.updRun j f).switchLog = s.switchLog := by simp [State.updRun]
@[simp] theorem State.updRun_log (j : Nat) (f : StepRun → StepRun) : (s.updRun j f).log = s.log := by simp [State.updRun]
@[simp] theorem State.updRun_kept (j : Nat) (f : StepRun → StepRun) : (s.updRun j f).kept = s.kept := by simp [State.updRun]
@[simp] theorem State.updRun_recordRoom (j : Nat) (f : StepRun → StepRun) : (s.updRun j f).recordRoom = s.recordRoom := by simp [State.updRun]
@[simp] theorem State.updRun_clearing (j : Nat) (f : StepRun → StepRun) : (s.updRun j f).clearing = s.clearing := by simp [State.updRun]
@[simp] theorem State.updRun_fills (j : Nat) (f : StepRun → StepRun) : (s.updRun j f).fills = s.fills := by simp [State.updRun]

/-! ### State.updLink -/

@[simp] theorem State.updLink_pending (l : Nat) (f : Link → Link) : (s.updLink l f).pending = s.pending := rfl
@[simp] theorem State.updLink_now (l : Nat) (f : Link → Link) : (s.updLink l f).now = s.now := rfl
@[simp] theorem State.updLink_draws (l : Nat) (f : Link → Link) : (s.updLink l f).draws = s.draws := rfl
@[simp] theorem State.updLink_issues (l : Nat) (f : Link → Link) : (s.updLink l f).issues = s.issues := rfl
@[simp] theorem State.updLink_opSeq (l : Nat) (f : Link → Link) : (s.updLink l f).opSeq = s.opSeq := rfl
@[simp] theorem State.updLink_cmdSeq (l : Nat) (f : Link → Link) : (s.updLink l f).cmdSeq = s.cmdSeq := rfl
@[simp] theorem State.updLink_inflight (l : Nat) (f : Link → Link) : (s.updLink l f).inflight = s.inflight := rfl
@[simp] theorem State.updLink_acts (l : Nat) (f : Link → Link) : (s.updLink l f).acts = s.acts := rfl
@[simp] theorem State.updLink_tickAt (l : Nat) (f : Link → Link) : (s.updLink l f).tickAt = s.tickAt := rfl
@[simp] theorem State.updLink_taken (l : Nat) (f : Link → Link) : (s.updLink l f).taken = s.taken := rfl
@[simp] theorem State.updLink_tiles (l : Nat) (f : Link → Link) : (s.updLink l f).tiles = s.tiles := rfl
@[simp] theorem State.updLink_tier1 (l : Nat) (f : Link → Link) : (s.updLink l f).tier1 = s.tier1 := rfl
@[simp] theorem State.updLink_tier2 (l : Nat) (f : Link → Link) : (s.updLink l f).tier2 = s.tier2 := rfl
@[simp] theorem State.updLink_hub (l : Nat) (f : Link → Link) : (s.updLink l f).hub = s.hub := rfl
@[simp] theorem State.updLink_ctls (l : Nat) (f : Link → Link) : (s.updLink l f).ctls = s.ctls := rfl
@[simp] theorem State.updLink_routes (l : Nat) (f : Link → Link) : (s.updLink l f).routes = s.routes := rfl
@[simp] theorem State.updLink_parts (l : Nat) (f : Link → Link) : (s.updLink l f).parts = s.parts := rfl
@[simp] theorem State.updLink_images (l : Nat) (f : Link → Link) : (s.updLink l f).images = s.images := rfl
@[simp] theorem State.updLink_jobs (l : Nat) (f : Link → Link) : (s.updLink l f).jobs = s.jobs := rfl
@[simp] theorem State.updLink_plumb (l : Nat) (f : Link → Link) : (s.updLink l f).plumb = s.plumb := rfl
@[simp] theorem State.updLink_lostDies (l : Nat) (f : Link → Link) : (s.updLink l f).lostDies = s.lostDies := rfl
@[simp] theorem State.updLink_failed (l : Nat) (f : Link → Link) : (s.updLink l f).failed = s.failed := rfl
@[simp] theorem State.updLink_lossAt (l : Nat) (f : Link → Link) : (s.updLink l f).lossAt = s.lossAt := rfl
@[simp] theorem State.updLink_variantB (l : Nat) (f : Link → Link) : (s.updLink l f).variantB = s.variantB := rfl
@[simp] theorem State.updLink_number (l : Nat) (f : Link → Link) : (s.updLink l f).number = s.number := rfl
@[simp] theorem State.updLink_serial (l : Nat) (f : Link → Link) : (s.updLink l f).serial = s.serial := rfl
@[simp] theorem State.updLink_idHash (l : Nat) (f : Link → Link) : (s.updLink l f).idHash = s.idHash := rfl
@[simp] theorem State.updLink_firmware (l : Nat) (f : Link → Link) : (s.updLink l f).firmware = s.firmware := rfl
@[simp] theorem State.updLink_firmwareDigest (l : Nat) (f : Link → Link) : (s.updLink l f).firmwareDigest = s.firmwareDigest := rfl
@[simp] theorem State.updLink_quiescing (l : Nat) (f : Link → Link) : (s.updLink l f).quiescing = s.quiescing := rfl
@[simp] theorem State.updLink_quiesce (l : Nat) (f : Link → Link) : (s.updLink l f).quiesce = s.quiesce := rfl
@[simp] theorem State.updLink_inbox (l : Nat) (f : Link → Link) : (s.updLink l f).inbox = s.inbox := rfl
@[simp] theorem State.updLink_messages (l : Nat) (f : Link → Link) : (s.updLink l f).messages = s.messages := rfl
@[simp] theorem State.updLink_wins (l : Nat) (f : Link → Link) : (s.updLink l f).wins = s.wins := rfl
@[simp] theorem State.updLink_cmds (l : Nat) (f : Link → Link) : (s.updLink l f).cmds = s.cmds := rfl
@[simp] theorem State.updLink_passed (l : Nat) (f : Link → Link) : (s.updLink l f).passed = s.passed := rfl
@[simp] theorem State.updLink_regs (l : Nat) (f : Link → Link) : (s.updLink l f).regs = s.regs := rfl
@[simp] theorem State.updLink_conns (l : Nat) (f : Link → Link) : (s.updLink l f).conns = s.conns := rfl
@[simp] theorem State.updLink_connSeq (l : Nat) (f : Link → Link) : (s.updLink l f).connSeq = s.connSeq := rfl
@[simp] theorem State.updLink_requests (l : Nat) (f : Link → Link) : (s.updLink l f).requests = s.requests := rfl
@[simp] theorem State.updLink_budgets (l : Nat) (f : Link → Link) : (s.updLink l f).budgets = s.budgets := rfl
@[simp] theorem State.updLink_admissions (l : Nat) (f : Link → Link) : (s.updLink l f).admissions = s.admissions := rfl
@[simp] theorem State.updLink_store (l : Nat) (f : Link → Link) : (s.updLink l f).store = s.store := rfl
@[simp] theorem State.updLink_start (l : Nat) (f : Link → Link) : (s.updLink l f).start = s.start := rfl
@[simp] theorem State.updLink_power (l : Nat) (f : Link → Link) : (s.updLink l f).power = s.power := rfl
@[simp] theorem State.updLink_health (l : Nat) (f : Link → Link) : (s.updLink l f).health = s.health := rfl
@[simp] theorem State.updLink_drive (l : Nat) (f : Link → Link) : (s.updLink l f).drive = s.drive := rfl
@[simp] theorem State.updLink_catalogue (l : Nat) (f : Link → Link) : (s.updLink l f).catalogue = s.catalogue := rfl
@[simp] theorem State.updLink_sentParts (l : Nat) (f : Link → Link) : (s.updLink l f).sentParts = s.sentParts := rfl
@[simp] theorem State.updLink_switches (l : Nat) (f : Link → Link) : (s.updLink l f).switches = s.switches := rfl
@[simp] theorem State.updLink_switchLog (l : Nat) (f : Link → Link) : (s.updLink l f).switchLog = s.switchLog := rfl
@[simp] theorem State.updLink_log (l : Nat) (f : Link → Link) : (s.updLink l f).log = s.log := rfl
@[simp] theorem State.updLink_kept (l : Nat) (f : Link → Link) : (s.updLink l f).kept = s.kept := rfl
@[simp] theorem State.updLink_recordRoom (l : Nat) (f : Link → Link) : (s.updLink l f).recordRoom = s.recordRoom := rfl
@[simp] theorem State.updLink_clearing (l : Nat) (f : Link → Link) : (s.updLink l f).clearing = s.clearing := rfl
@[simp] theorem State.updLink_fills (l : Nat) (f : Link → Link) : (s.updLink l f).fills = s.fills := rfl

/-! ### State.updCtl -/

@[simp] theorem State.updCtl_pending (c : Nat) (f : Ctl → Ctl) : (s.updCtl c f).pending = s.pending := rfl
@[simp] theorem State.updCtl_now (c : Nat) (f : Ctl → Ctl) : (s.updCtl c f).now = s.now := rfl
@[simp] theorem State.updCtl_draws (c : Nat) (f : Ctl → Ctl) : (s.updCtl c f).draws = s.draws := rfl
@[simp] theorem State.updCtl_issues (c : Nat) (f : Ctl → Ctl) : (s.updCtl c f).issues = s.issues := rfl
@[simp] theorem State.updCtl_opSeq (c : Nat) (f : Ctl → Ctl) : (s.updCtl c f).opSeq = s.opSeq := rfl
@[simp] theorem State.updCtl_cmdSeq (c : Nat) (f : Ctl → Ctl) : (s.updCtl c f).cmdSeq = s.cmdSeq := rfl
@[simp] theorem State.updCtl_inflight (c : Nat) (f : Ctl → Ctl) : (s.updCtl c f).inflight = s.inflight := rfl
@[simp] theorem State.updCtl_acts (c : Nat) (f : Ctl → Ctl) : (s.updCtl c f).acts = s.acts := rfl
@[simp] theorem State.updCtl_tickAt (c : Nat) (f : Ctl → Ctl) : (s.updCtl c f).tickAt = s.tickAt := rfl
@[simp] theorem State.updCtl_taken (c : Nat) (f : Ctl → Ctl) : (s.updCtl c f).taken = s.taken := rfl
@[simp] theorem State.updCtl_tiles (c : Nat) (f : Ctl → Ctl) : (s.updCtl c f).tiles = s.tiles := rfl
@[simp] theorem State.updCtl_tier1 (c : Nat) (f : Ctl → Ctl) : (s.updCtl c f).tier1 = s.tier1 := rfl
@[simp] theorem State.updCtl_tier2 (c : Nat) (f : Ctl → Ctl) : (s.updCtl c f).tier2 = s.tier2 := rfl
@[simp] theorem State.updCtl_hub (c : Nat) (f : Ctl → Ctl) : (s.updCtl c f).hub = s.hub := rfl
@[simp] theorem State.updCtl_links (c : Nat) (f : Ctl → Ctl) : (s.updCtl c f).links = s.links := rfl
@[simp] theorem State.updCtl_routes (c : Nat) (f : Ctl → Ctl) : (s.updCtl c f).routes = s.routes := rfl
@[simp] theorem State.updCtl_parts (c : Nat) (f : Ctl → Ctl) : (s.updCtl c f).parts = s.parts := rfl
@[simp] theorem State.updCtl_images (c : Nat) (f : Ctl → Ctl) : (s.updCtl c f).images = s.images := rfl
@[simp] theorem State.updCtl_jobs (c : Nat) (f : Ctl → Ctl) : (s.updCtl c f).jobs = s.jobs := rfl
@[simp] theorem State.updCtl_plumb (c : Nat) (f : Ctl → Ctl) : (s.updCtl c f).plumb = s.plumb := rfl
@[simp] theorem State.updCtl_lostDies (c : Nat) (f : Ctl → Ctl) : (s.updCtl c f).lostDies = s.lostDies := rfl
@[simp] theorem State.updCtl_failed (c : Nat) (f : Ctl → Ctl) : (s.updCtl c f).failed = s.failed := rfl
@[simp] theorem State.updCtl_lossAt (c : Nat) (f : Ctl → Ctl) : (s.updCtl c f).lossAt = s.lossAt := rfl
@[simp] theorem State.updCtl_variantB (c : Nat) (f : Ctl → Ctl) : (s.updCtl c f).variantB = s.variantB := rfl
@[simp] theorem State.updCtl_number (c : Nat) (f : Ctl → Ctl) : (s.updCtl c f).number = s.number := rfl
@[simp] theorem State.updCtl_serial (c : Nat) (f : Ctl → Ctl) : (s.updCtl c f).serial = s.serial := rfl
@[simp] theorem State.updCtl_idHash (c : Nat) (f : Ctl → Ctl) : (s.updCtl c f).idHash = s.idHash := rfl
@[simp] theorem State.updCtl_firmware (c : Nat) (f : Ctl → Ctl) : (s.updCtl c f).firmware = s.firmware := rfl
@[simp] theorem State.updCtl_firmwareDigest (c : Nat) (f : Ctl → Ctl) : (s.updCtl c f).firmwareDigest = s.firmwareDigest := rfl
@[simp] theorem State.updCtl_quiescing (c : Nat) (f : Ctl → Ctl) : (s.updCtl c f).quiescing = s.quiescing := rfl
@[simp] theorem State.updCtl_quiesce (c : Nat) (f : Ctl → Ctl) : (s.updCtl c f).quiesce = s.quiesce := rfl
@[simp] theorem State.updCtl_inbox (c : Nat) (f : Ctl → Ctl) : (s.updCtl c f).inbox = s.inbox := rfl
@[simp] theorem State.updCtl_messages (c : Nat) (f : Ctl → Ctl) : (s.updCtl c f).messages = s.messages := rfl
@[simp] theorem State.updCtl_wins (c : Nat) (f : Ctl → Ctl) : (s.updCtl c f).wins = s.wins := rfl
@[simp] theorem State.updCtl_cmds (c : Nat) (f : Ctl → Ctl) : (s.updCtl c f).cmds = s.cmds := rfl
@[simp] theorem State.updCtl_passed (c : Nat) (f : Ctl → Ctl) : (s.updCtl c f).passed = s.passed := rfl
@[simp] theorem State.updCtl_regs (c : Nat) (f : Ctl → Ctl) : (s.updCtl c f).regs = s.regs := rfl
@[simp] theorem State.updCtl_conns (c : Nat) (f : Ctl → Ctl) : (s.updCtl c f).conns = s.conns := rfl
@[simp] theorem State.updCtl_connSeq (c : Nat) (f : Ctl → Ctl) : (s.updCtl c f).connSeq = s.connSeq := rfl
@[simp] theorem State.updCtl_requests (c : Nat) (f : Ctl → Ctl) : (s.updCtl c f).requests = s.requests := rfl
@[simp] theorem State.updCtl_budgets (c : Nat) (f : Ctl → Ctl) : (s.updCtl c f).budgets = s.budgets := rfl
@[simp] theorem State.updCtl_admissions (c : Nat) (f : Ctl → Ctl) : (s.updCtl c f).admissions = s.admissions := rfl
@[simp] theorem State.updCtl_store (c : Nat) (f : Ctl → Ctl) : (s.updCtl c f).store = s.store := rfl
@[simp] theorem State.updCtl_start (c : Nat) (f : Ctl → Ctl) : (s.updCtl c f).start = s.start := rfl
@[simp] theorem State.updCtl_power (c : Nat) (f : Ctl → Ctl) : (s.updCtl c f).power = s.power := rfl
@[simp] theorem State.updCtl_health (c : Nat) (f : Ctl → Ctl) : (s.updCtl c f).health = s.health := rfl
@[simp] theorem State.updCtl_drive (c : Nat) (f : Ctl → Ctl) : (s.updCtl c f).drive = s.drive := rfl
@[simp] theorem State.updCtl_catalogue (c : Nat) (f : Ctl → Ctl) : (s.updCtl c f).catalogue = s.catalogue := rfl
@[simp] theorem State.updCtl_sentParts (c : Nat) (f : Ctl → Ctl) : (s.updCtl c f).sentParts = s.sentParts := rfl
@[simp] theorem State.updCtl_switches (c : Nat) (f : Ctl → Ctl) : (s.updCtl c f).switches = s.switches := rfl
@[simp] theorem State.updCtl_switchLog (c : Nat) (f : Ctl → Ctl) : (s.updCtl c f).switchLog = s.switchLog := rfl
@[simp] theorem State.updCtl_log (c : Nat) (f : Ctl → Ctl) : (s.updCtl c f).log = s.log := rfl
@[simp] theorem State.updCtl_kept (c : Nat) (f : Ctl → Ctl) : (s.updCtl c f).kept = s.kept := rfl
@[simp] theorem State.updCtl_recordRoom (c : Nat) (f : Ctl → Ctl) : (s.updCtl c f).recordRoom = s.recordRoom := rfl
@[simp] theorem State.updCtl_clearing (c : Nat) (f : Ctl → Ctl) : (s.updCtl c f).clearing = s.clearing := rfl
@[simp] theorem State.updCtl_fills (c : Nat) (f : Ctl → Ctl) : (s.updCtl c f).fills = s.fills := rfl

/-! ### State.updPart -/

@[simp] theorem State.updPart_pending (p : Nat) (f : Part → Part) : (s.updPart p f).pending = s.pending := rfl
@[simp] theorem State.updPart_now (p : Nat) (f : Part → Part) : (s.updPart p f).now = s.now := rfl
@[simp] theorem State.updPart_draws (p : Nat) (f : Part → Part) : (s.updPart p f).draws = s.draws := rfl
@[simp] theorem State.updPart_issues (p : Nat) (f : Part → Part) : (s.updPart p f).issues = s.issues := rfl
@[simp] theorem State.updPart_opSeq (p : Nat) (f : Part → Part) : (s.updPart p f).opSeq = s.opSeq := rfl
@[simp] theorem State.updPart_cmdSeq (p : Nat) (f : Part → Part) : (s.updPart p f).cmdSeq = s.cmdSeq := rfl
@[simp] theorem State.updPart_inflight (p : Nat) (f : Part → Part) : (s.updPart p f).inflight = s.inflight := rfl
@[simp] theorem State.updPart_acts (p : Nat) (f : Part → Part) : (s.updPart p f).acts = s.acts := rfl
@[simp] theorem State.updPart_tickAt (p : Nat) (f : Part → Part) : (s.updPart p f).tickAt = s.tickAt := rfl
@[simp] theorem State.updPart_taken (p : Nat) (f : Part → Part) : (s.updPart p f).taken = s.taken := rfl
@[simp] theorem State.updPart_tiles (p : Nat) (f : Part → Part) : (s.updPart p f).tiles = s.tiles := rfl
@[simp] theorem State.updPart_tier1 (p : Nat) (f : Part → Part) : (s.updPart p f).tier1 = s.tier1 := rfl
@[simp] theorem State.updPart_tier2 (p : Nat) (f : Part → Part) : (s.updPart p f).tier2 = s.tier2 := rfl
@[simp] theorem State.updPart_hub (p : Nat) (f : Part → Part) : (s.updPart p f).hub = s.hub := rfl
@[simp] theorem State.updPart_ctls (p : Nat) (f : Part → Part) : (s.updPart p f).ctls = s.ctls := rfl
@[simp] theorem State.updPart_links (p : Nat) (f : Part → Part) : (s.updPart p f).links = s.links := rfl
@[simp] theorem State.updPart_routes (p : Nat) (f : Part → Part) : (s.updPart p f).routes = s.routes := rfl
@[simp] theorem State.updPart_images (p : Nat) (f : Part → Part) : (s.updPart p f).images = s.images := rfl
@[simp] theorem State.updPart_jobs (p : Nat) (f : Part → Part) : (s.updPart p f).jobs = s.jobs := rfl
@[simp] theorem State.updPart_plumb (p : Nat) (f : Part → Part) : (s.updPart p f).plumb = s.plumb := rfl
@[simp] theorem State.updPart_lostDies (p : Nat) (f : Part → Part) : (s.updPart p f).lostDies = s.lostDies := rfl
@[simp] theorem State.updPart_failed (p : Nat) (f : Part → Part) : (s.updPart p f).failed = s.failed := rfl
@[simp] theorem State.updPart_lossAt (p : Nat) (f : Part → Part) : (s.updPart p f).lossAt = s.lossAt := rfl
@[simp] theorem State.updPart_variantB (p : Nat) (f : Part → Part) : (s.updPart p f).variantB = s.variantB := rfl
@[simp] theorem State.updPart_number (p : Nat) (f : Part → Part) : (s.updPart p f).number = s.number := rfl
@[simp] theorem State.updPart_serial (p : Nat) (f : Part → Part) : (s.updPart p f).serial = s.serial := rfl
@[simp] theorem State.updPart_idHash (p : Nat) (f : Part → Part) : (s.updPart p f).idHash = s.idHash := rfl
@[simp] theorem State.updPart_firmware (p : Nat) (f : Part → Part) : (s.updPart p f).firmware = s.firmware := rfl
@[simp] theorem State.updPart_firmwareDigest (p : Nat) (f : Part → Part) : (s.updPart p f).firmwareDigest = s.firmwareDigest := rfl
@[simp] theorem State.updPart_quiescing (p : Nat) (f : Part → Part) : (s.updPart p f).quiescing = s.quiescing := rfl
@[simp] theorem State.updPart_quiesce (p : Nat) (f : Part → Part) : (s.updPart p f).quiesce = s.quiesce := rfl
@[simp] theorem State.updPart_inbox (p : Nat) (f : Part → Part) : (s.updPart p f).inbox = s.inbox := rfl
@[simp] theorem State.updPart_messages (p : Nat) (f : Part → Part) : (s.updPart p f).messages = s.messages := rfl
@[simp] theorem State.updPart_wins (p : Nat) (f : Part → Part) : (s.updPart p f).wins = s.wins := rfl
@[simp] theorem State.updPart_cmds (p : Nat) (f : Part → Part) : (s.updPart p f).cmds = s.cmds := rfl
@[simp] theorem State.updPart_passed (p : Nat) (f : Part → Part) : (s.updPart p f).passed = s.passed := rfl
@[simp] theorem State.updPart_regs (p : Nat) (f : Part → Part) : (s.updPart p f).regs = s.regs := rfl
@[simp] theorem State.updPart_conns (p : Nat) (f : Part → Part) : (s.updPart p f).conns = s.conns := rfl
@[simp] theorem State.updPart_connSeq (p : Nat) (f : Part → Part) : (s.updPart p f).connSeq = s.connSeq := rfl
@[simp] theorem State.updPart_requests (p : Nat) (f : Part → Part) : (s.updPart p f).requests = s.requests := rfl
@[simp] theorem State.updPart_budgets (p : Nat) (f : Part → Part) : (s.updPart p f).budgets = s.budgets := rfl
@[simp] theorem State.updPart_admissions (p : Nat) (f : Part → Part) : (s.updPart p f).admissions = s.admissions := rfl
@[simp] theorem State.updPart_store (p : Nat) (f : Part → Part) : (s.updPart p f).store = s.store := rfl
@[simp] theorem State.updPart_start (p : Nat) (f : Part → Part) : (s.updPart p f).start = s.start := rfl
@[simp] theorem State.updPart_power (p : Nat) (f : Part → Part) : (s.updPart p f).power = s.power := rfl
@[simp] theorem State.updPart_health (p : Nat) (f : Part → Part) : (s.updPart p f).health = s.health := rfl
@[simp] theorem State.updPart_drive (p : Nat) (f : Part → Part) : (s.updPart p f).drive = s.drive := rfl
@[simp] theorem State.updPart_catalogue (p : Nat) (f : Part → Part) : (s.updPart p f).catalogue = s.catalogue := rfl
@[simp] theorem State.updPart_sentParts (p : Nat) (f : Part → Part) : (s.updPart p f).sentParts = s.sentParts := rfl
@[simp] theorem State.updPart_switches (p : Nat) (f : Part → Part) : (s.updPart p f).switches = s.switches := rfl
@[simp] theorem State.updPart_switchLog (p : Nat) (f : Part → Part) : (s.updPart p f).switchLog = s.switchLog := rfl
@[simp] theorem State.updPart_log (p : Nat) (f : Part → Part) : (s.updPart p f).log = s.log := rfl
@[simp] theorem State.updPart_kept (p : Nat) (f : Part → Part) : (s.updPart p f).kept = s.kept := rfl
@[simp] theorem State.updPart_recordRoom (p : Nat) (f : Part → Part) : (s.updPart p f).recordRoom = s.recordRoom := rfl
@[simp] theorem State.updPart_clearing (p : Nat) (f : Part → Part) : (s.updPart p f).clearing = s.clearing := rfl
@[simp] theorem State.updPart_fills (p : Nat) (f : Part → Part) : (s.updPart p f).fills = s.fills := rfl

/-! ### State.updReq -/

@[simp] theorem State.updReq_pending (e : Nat) (f : Req → Req) : (s.updReq e f).pending = s.pending := rfl
@[simp] theorem State.updReq_now (e : Nat) (f : Req → Req) : (s.updReq e f).now = s.now := rfl
@[simp] theorem State.updReq_draws (e : Nat) (f : Req → Req) : (s.updReq e f).draws = s.draws := rfl
@[simp] theorem State.updReq_issues (e : Nat) (f : Req → Req) : (s.updReq e f).issues = s.issues := rfl
@[simp] theorem State.updReq_opSeq (e : Nat) (f : Req → Req) : (s.updReq e f).opSeq = s.opSeq := rfl
@[simp] theorem State.updReq_cmdSeq (e : Nat) (f : Req → Req) : (s.updReq e f).cmdSeq = s.cmdSeq := rfl
@[simp] theorem State.updReq_inflight (e : Nat) (f : Req → Req) : (s.updReq e f).inflight = s.inflight := rfl
@[simp] theorem State.updReq_acts (e : Nat) (f : Req → Req) : (s.updReq e f).acts = s.acts := rfl
@[simp] theorem State.updReq_tickAt (e : Nat) (f : Req → Req) : (s.updReq e f).tickAt = s.tickAt := rfl
@[simp] theorem State.updReq_taken (e : Nat) (f : Req → Req) : (s.updReq e f).taken = s.taken := rfl
@[simp] theorem State.updReq_tiles (e : Nat) (f : Req → Req) : (s.updReq e f).tiles = s.tiles := rfl
@[simp] theorem State.updReq_tier1 (e : Nat) (f : Req → Req) : (s.updReq e f).tier1 = s.tier1 := rfl
@[simp] theorem State.updReq_tier2 (e : Nat) (f : Req → Req) : (s.updReq e f).tier2 = s.tier2 := rfl
@[simp] theorem State.updReq_hub (e : Nat) (f : Req → Req) : (s.updReq e f).hub = s.hub := rfl
@[simp] theorem State.updReq_ctls (e : Nat) (f : Req → Req) : (s.updReq e f).ctls = s.ctls := rfl
@[simp] theorem State.updReq_links (e : Nat) (f : Req → Req) : (s.updReq e f).links = s.links := rfl
@[simp] theorem State.updReq_routes (e : Nat) (f : Req → Req) : (s.updReq e f).routes = s.routes := rfl
@[simp] theorem State.updReq_parts (e : Nat) (f : Req → Req) : (s.updReq e f).parts = s.parts := rfl
@[simp] theorem State.updReq_images (e : Nat) (f : Req → Req) : (s.updReq e f).images = s.images := rfl
@[simp] theorem State.updReq_jobs (e : Nat) (f : Req → Req) : (s.updReq e f).jobs = s.jobs := rfl
@[simp] theorem State.updReq_plumb (e : Nat) (f : Req → Req) : (s.updReq e f).plumb = s.plumb := rfl
@[simp] theorem State.updReq_lostDies (e : Nat) (f : Req → Req) : (s.updReq e f).lostDies = s.lostDies := rfl
@[simp] theorem State.updReq_failed (e : Nat) (f : Req → Req) : (s.updReq e f).failed = s.failed := rfl
@[simp] theorem State.updReq_lossAt (e : Nat) (f : Req → Req) : (s.updReq e f).lossAt = s.lossAt := rfl
@[simp] theorem State.updReq_variantB (e : Nat) (f : Req → Req) : (s.updReq e f).variantB = s.variantB := rfl
@[simp] theorem State.updReq_number (e : Nat) (f : Req → Req) : (s.updReq e f).number = s.number := rfl
@[simp] theorem State.updReq_serial (e : Nat) (f : Req → Req) : (s.updReq e f).serial = s.serial := rfl
@[simp] theorem State.updReq_idHash (e : Nat) (f : Req → Req) : (s.updReq e f).idHash = s.idHash := rfl
@[simp] theorem State.updReq_firmware (e : Nat) (f : Req → Req) : (s.updReq e f).firmware = s.firmware := rfl
@[simp] theorem State.updReq_firmwareDigest (e : Nat) (f : Req → Req) : (s.updReq e f).firmwareDigest = s.firmwareDigest := rfl
@[simp] theorem State.updReq_quiescing (e : Nat) (f : Req → Req) : (s.updReq e f).quiescing = s.quiescing := rfl
@[simp] theorem State.updReq_quiesce (e : Nat) (f : Req → Req) : (s.updReq e f).quiesce = s.quiesce := rfl
@[simp] theorem State.updReq_inbox (e : Nat) (f : Req → Req) : (s.updReq e f).inbox = s.inbox := rfl
@[simp] theorem State.updReq_messages (e : Nat) (f : Req → Req) : (s.updReq e f).messages = s.messages := rfl
@[simp] theorem State.updReq_wins (e : Nat) (f : Req → Req) : (s.updReq e f).wins = s.wins := rfl
@[simp] theorem State.updReq_cmds (e : Nat) (f : Req → Req) : (s.updReq e f).cmds = s.cmds := rfl
@[simp] theorem State.updReq_passed (e : Nat) (f : Req → Req) : (s.updReq e f).passed = s.passed := rfl
@[simp] theorem State.updReq_regs (e : Nat) (f : Req → Req) : (s.updReq e f).regs = s.regs := rfl
@[simp] theorem State.updReq_conns (e : Nat) (f : Req → Req) : (s.updReq e f).conns = s.conns := rfl
@[simp] theorem State.updReq_connSeq (e : Nat) (f : Req → Req) : (s.updReq e f).connSeq = s.connSeq := rfl
@[simp] theorem State.updReq_budgets (e : Nat) (f : Req → Req) : (s.updReq e f).budgets = s.budgets := rfl
@[simp] theorem State.updReq_admissions (e : Nat) (f : Req → Req) : (s.updReq e f).admissions = s.admissions := rfl
@[simp] theorem State.updReq_store (e : Nat) (f : Req → Req) : (s.updReq e f).store = s.store := rfl
@[simp] theorem State.updReq_start (e : Nat) (f : Req → Req) : (s.updReq e f).start = s.start := rfl
@[simp] theorem State.updReq_power (e : Nat) (f : Req → Req) : (s.updReq e f).power = s.power := rfl
@[simp] theorem State.updReq_health (e : Nat) (f : Req → Req) : (s.updReq e f).health = s.health := rfl
@[simp] theorem State.updReq_drive (e : Nat) (f : Req → Req) : (s.updReq e f).drive = s.drive := rfl
@[simp] theorem State.updReq_catalogue (e : Nat) (f : Req → Req) : (s.updReq e f).catalogue = s.catalogue := rfl
@[simp] theorem State.updReq_sentParts (e : Nat) (f : Req → Req) : (s.updReq e f).sentParts = s.sentParts := rfl
@[simp] theorem State.updReq_switches (e : Nat) (f : Req → Req) : (s.updReq e f).switches = s.switches := rfl
@[simp] theorem State.updReq_switchLog (e : Nat) (f : Req → Req) : (s.updReq e f).switchLog = s.switchLog := rfl
@[simp] theorem State.updReq_log (e : Nat) (f : Req → Req) : (s.updReq e f).log = s.log := rfl
@[simp] theorem State.updReq_kept (e : Nat) (f : Req → Req) : (s.updReq e f).kept = s.kept := rfl
@[simp] theorem State.updReq_recordRoom (e : Nat) (f : Req → Req) : (s.updReq e f).recordRoom = s.recordRoom := rfl
@[simp] theorem State.updReq_clearing (e : Nat) (f : Req → Req) : (s.updReq e f).clearing = s.clearing := rfl
@[simp] theorem State.updReq_fills (e : Nat) (f : Req → Req) : (s.updReq e f).fills = s.fills := rfl

/-! ### State.updWin -/

@[simp] theorem State.updWin_pending (w : Nat) (f : Win → Win) : (s.updWin w f).pending = s.pending := by unfold State.updWin; split <;> rfl
@[simp] theorem State.updWin_now (w : Nat) (f : Win → Win) : (s.updWin w f).now = s.now := by unfold State.updWin; split <;> rfl
@[simp] theorem State.updWin_draws (w : Nat) (f : Win → Win) : (s.updWin w f).draws = s.draws := by unfold State.updWin; split <;> rfl
@[simp] theorem State.updWin_issues (w : Nat) (f : Win → Win) : (s.updWin w f).issues = s.issues := by unfold State.updWin; split <;> rfl
@[simp] theorem State.updWin_opSeq (w : Nat) (f : Win → Win) : (s.updWin w f).opSeq = s.opSeq := by unfold State.updWin; split <;> rfl
@[simp] theorem State.updWin_cmdSeq (w : Nat) (f : Win → Win) : (s.updWin w f).cmdSeq = s.cmdSeq := by unfold State.updWin; split <;> rfl
@[simp] theorem State.updWin_inflight (w : Nat) (f : Win → Win) : (s.updWin w f).inflight = s.inflight := by unfold State.updWin; split <;> rfl
@[simp] theorem State.updWin_acts (w : Nat) (f : Win → Win) : (s.updWin w f).acts = s.acts := by unfold State.updWin; split <;> rfl
@[simp] theorem State.updWin_tickAt (w : Nat) (f : Win → Win) : (s.updWin w f).tickAt = s.tickAt := by unfold State.updWin; split <;> rfl
@[simp] theorem State.updWin_taken (w : Nat) (f : Win → Win) : (s.updWin w f).taken = s.taken := by unfold State.updWin; split <;> rfl
@[simp] theorem State.updWin_tiles (w : Nat) (f : Win → Win) : (s.updWin w f).tiles = s.tiles := by unfold State.updWin; split <;> rfl
@[simp] theorem State.updWin_tier1 (w : Nat) (f : Win → Win) : (s.updWin w f).tier1 = s.tier1 := by unfold State.updWin; split <;> rfl
@[simp] theorem State.updWin_tier2 (w : Nat) (f : Win → Win) : (s.updWin w f).tier2 = s.tier2 := by unfold State.updWin; split <;> rfl
@[simp] theorem State.updWin_hub (w : Nat) (f : Win → Win) : (s.updWin w f).hub = s.hub := by unfold State.updWin; split <;> rfl
@[simp] theorem State.updWin_ctls (w : Nat) (f : Win → Win) : (s.updWin w f).ctls = s.ctls := by unfold State.updWin; split <;> rfl
@[simp] theorem State.updWin_links (w : Nat) (f : Win → Win) : (s.updWin w f).links = s.links := by unfold State.updWin; split <;> rfl
@[simp] theorem State.updWin_routes (w : Nat) (f : Win → Win) : (s.updWin w f).routes = s.routes := by unfold State.updWin; split <;> rfl
@[simp] theorem State.updWin_parts (w : Nat) (f : Win → Win) : (s.updWin w f).parts = s.parts := by unfold State.updWin; split <;> rfl
@[simp] theorem State.updWin_images (w : Nat) (f : Win → Win) : (s.updWin w f).images = s.images := by unfold State.updWin; split <;> rfl
@[simp] theorem State.updWin_jobs (w : Nat) (f : Win → Win) : (s.updWin w f).jobs = s.jobs := by unfold State.updWin; split <;> rfl
@[simp] theorem State.updWin_plumb (w : Nat) (f : Win → Win) : (s.updWin w f).plumb = s.plumb := by unfold State.updWin; split <;> rfl
@[simp] theorem State.updWin_lostDies (w : Nat) (f : Win → Win) : (s.updWin w f).lostDies = s.lostDies := by unfold State.updWin; split <;> rfl
@[simp] theorem State.updWin_failed (w : Nat) (f : Win → Win) : (s.updWin w f).failed = s.failed := by unfold State.updWin; split <;> rfl
@[simp] theorem State.updWin_lossAt (w : Nat) (f : Win → Win) : (s.updWin w f).lossAt = s.lossAt := by unfold State.updWin; split <;> rfl
@[simp] theorem State.updWin_variantB (w : Nat) (f : Win → Win) : (s.updWin w f).variantB = s.variantB := by unfold State.updWin; split <;> rfl
@[simp] theorem State.updWin_number (w : Nat) (f : Win → Win) : (s.updWin w f).number = s.number := by unfold State.updWin; split <;> rfl
@[simp] theorem State.updWin_serial (w : Nat) (f : Win → Win) : (s.updWin w f).serial = s.serial := by unfold State.updWin; split <;> rfl
@[simp] theorem State.updWin_idHash (w : Nat) (f : Win → Win) : (s.updWin w f).idHash = s.idHash := by unfold State.updWin; split <;> rfl
@[simp] theorem State.updWin_firmware (w : Nat) (f : Win → Win) : (s.updWin w f).firmware = s.firmware := by unfold State.updWin; split <;> rfl
@[simp] theorem State.updWin_firmwareDigest (w : Nat) (f : Win → Win) : (s.updWin w f).firmwareDigest = s.firmwareDigest := by unfold State.updWin; split <;> rfl
@[simp] theorem State.updWin_quiescing (w : Nat) (f : Win → Win) : (s.updWin w f).quiescing = s.quiescing := by unfold State.updWin; split <;> rfl
@[simp] theorem State.updWin_quiesce (w : Nat) (f : Win → Win) : (s.updWin w f).quiesce = s.quiesce := by unfold State.updWin; split <;> rfl
@[simp] theorem State.updWin_inbox (w : Nat) (f : Win → Win) : (s.updWin w f).inbox = s.inbox := by unfold State.updWin; split <;> rfl
@[simp] theorem State.updWin_messages (w : Nat) (f : Win → Win) : (s.updWin w f).messages = s.messages := by unfold State.updWin; split <;> rfl
@[simp] theorem State.updWin_cmds (w : Nat) (f : Win → Win) : (s.updWin w f).cmds = s.cmds := by unfold State.updWin; split <;> rfl
@[simp] theorem State.updWin_passed (w : Nat) (f : Win → Win) : (s.updWin w f).passed = s.passed := by unfold State.updWin; split <;> rfl
@[simp] theorem State.updWin_regs (w : Nat) (f : Win → Win) : (s.updWin w f).regs = s.regs := by unfold State.updWin; split <;> rfl
@[simp] theorem State.updWin_conns (w : Nat) (f : Win → Win) : (s.updWin w f).conns = s.conns := by unfold State.updWin; split <;> rfl
@[simp] theorem State.updWin_connSeq (w : Nat) (f : Win → Win) : (s.updWin w f).connSeq = s.connSeq := by unfold State.updWin; split <;> rfl
@[simp] theorem State.updWin_requests (w : Nat) (f : Win → Win) : (s.updWin w f).requests = s.requests := by unfold State.updWin; split <;> rfl
@[simp] theorem State.updWin_budgets (w : Nat) (f : Win → Win) : (s.updWin w f).budgets = s.budgets := by unfold State.updWin; split <;> rfl
@[simp] theorem State.updWin_admissions (w : Nat) (f : Win → Win) : (s.updWin w f).admissions = s.admissions := by unfold State.updWin; split <;> rfl
@[simp] theorem State.updWin_store (w : Nat) (f : Win → Win) : (s.updWin w f).store = s.store := by unfold State.updWin; split <;> rfl
@[simp] theorem State.updWin_start (w : Nat) (f : Win → Win) : (s.updWin w f).start = s.start := by unfold State.updWin; split <;> rfl
@[simp] theorem State.updWin_power (w : Nat) (f : Win → Win) : (s.updWin w f).power = s.power := by unfold State.updWin; split <;> rfl
@[simp] theorem State.updWin_health (w : Nat) (f : Win → Win) : (s.updWin w f).health = s.health := by unfold State.updWin; split <;> rfl
@[simp] theorem State.updWin_drive (w : Nat) (f : Win → Win) : (s.updWin w f).drive = s.drive := by unfold State.updWin; split <;> rfl
@[simp] theorem State.updWin_catalogue (w : Nat) (f : Win → Win) : (s.updWin w f).catalogue = s.catalogue := by unfold State.updWin; split <;> rfl
@[simp] theorem State.updWin_sentParts (w : Nat) (f : Win → Win) : (s.updWin w f).sentParts = s.sentParts := by unfold State.updWin; split <;> rfl
@[simp] theorem State.updWin_switches (w : Nat) (f : Win → Win) : (s.updWin w f).switches = s.switches := by unfold State.updWin; split <;> rfl
@[simp] theorem State.updWin_switchLog (w : Nat) (f : Win → Win) : (s.updWin w f).switchLog = s.switchLog := by unfold State.updWin; split <;> rfl
@[simp] theorem State.updWin_log (w : Nat) (f : Win → Win) : (s.updWin w f).log = s.log := by unfold State.updWin; split <;> rfl
@[simp] theorem State.updWin_kept (w : Nat) (f : Win → Win) : (s.updWin w f).kept = s.kept := by unfold State.updWin; split <;> rfl
@[simp] theorem State.updWin_recordRoom (w : Nat) (f : Win → Win) : (s.updWin w f).recordRoom = s.recordRoom := by unfold State.updWin; split <;> rfl
@[simp] theorem State.updWin_clearing (w : Nat) (f : Win → Win) : (s.updWin w f).clearing = s.clearing := by unfold State.updWin; split <;> rfl
@[simp] theorem State.updWin_fills (w : Nat) (f : Win → Win) : (s.updWin w f).fills = s.fills := by unfold State.updWin; split <;> rfl

/-! ### State.enqueue -/

@[simp] theorem State.enqueue_pending (o : Op) : (s.enqueue o).pending = s.pending := rfl
@[simp] theorem State.enqueue_now (o : Op) : (s.enqueue o).now = s.now := rfl
@[simp] theorem State.enqueue_draws (o : Op) : (s.enqueue o).draws = s.draws := rfl
@[simp] theorem State.enqueue_issues (o : Op) : (s.enqueue o).issues = s.issues := rfl
@[simp] theorem State.enqueue_opSeq (o : Op) : (s.enqueue o).opSeq = s.opSeq := rfl
@[simp] theorem State.enqueue_cmdSeq (o : Op) : (s.enqueue o).cmdSeq = s.cmdSeq := rfl
@[simp] theorem State.enqueue_acts (o : Op) : (s.enqueue o).acts = s.acts := rfl
@[simp] theorem State.enqueue_tickAt (o : Op) : (s.enqueue o).tickAt = s.tickAt := rfl
@[simp] theorem State.enqueue_taken (o : Op) : (s.enqueue o).taken = s.taken := rfl
@[simp] theorem State.enqueue_tiles (o : Op) : (s.enqueue o).tiles = s.tiles := rfl
@[simp] theorem State.enqueue_tier1 (o : Op) : (s.enqueue o).tier1 = s.tier1 := rfl
@[simp] theorem State.enqueue_tier2 (o : Op) : (s.enqueue o).tier2 = s.tier2 := rfl
@[simp] theorem State.enqueue_hub (o : Op) : (s.enqueue o).hub = s.hub := rfl
@[simp] theorem State.enqueue_ctls (o : Op) : (s.enqueue o).ctls = s.ctls := rfl
@[simp] theorem State.enqueue_links (o : Op) : (s.enqueue o).links = s.links := rfl
@[simp] theorem State.enqueue_routes (o : Op) : (s.enqueue o).routes = s.routes := rfl
@[simp] theorem State.enqueue_parts (o : Op) : (s.enqueue o).parts = s.parts := rfl
@[simp] theorem State.enqueue_images (o : Op) : (s.enqueue o).images = s.images := rfl
@[simp] theorem State.enqueue_jobs (o : Op) : (s.enqueue o).jobs = s.jobs := rfl
@[simp] theorem State.enqueue_plumb (o : Op) : (s.enqueue o).plumb = s.plumb := rfl
@[simp] theorem State.enqueue_lostDies (o : Op) : (s.enqueue o).lostDies = s.lostDies := rfl
@[simp] theorem State.enqueue_failed (o : Op) : (s.enqueue o).failed = s.failed := rfl
@[simp] theorem State.enqueue_lossAt (o : Op) : (s.enqueue o).lossAt = s.lossAt := rfl
@[simp] theorem State.enqueue_variantB (o : Op) : (s.enqueue o).variantB = s.variantB := rfl
@[simp] theorem State.enqueue_number (o : Op) : (s.enqueue o).number = s.number := rfl
@[simp] theorem State.enqueue_serial (o : Op) : (s.enqueue o).serial = s.serial := rfl
@[simp] theorem State.enqueue_idHash (o : Op) : (s.enqueue o).idHash = s.idHash := rfl
@[simp] theorem State.enqueue_firmware (o : Op) : (s.enqueue o).firmware = s.firmware := rfl
@[simp] theorem State.enqueue_firmwareDigest (o : Op) : (s.enqueue o).firmwareDigest = s.firmwareDigest := rfl
@[simp] theorem State.enqueue_quiescing (o : Op) : (s.enqueue o).quiescing = s.quiescing := rfl
@[simp] theorem State.enqueue_quiesce (o : Op) : (s.enqueue o).quiesce = s.quiesce := rfl
@[simp] theorem State.enqueue_inbox (o : Op) : (s.enqueue o).inbox = s.inbox := rfl
@[simp] theorem State.enqueue_messages (o : Op) : (s.enqueue o).messages = s.messages := rfl
@[simp] theorem State.enqueue_wins (o : Op) : (s.enqueue o).wins = s.wins := rfl
@[simp] theorem State.enqueue_cmds (o : Op) : (s.enqueue o).cmds = s.cmds := rfl
@[simp] theorem State.enqueue_passed (o : Op) : (s.enqueue o).passed = s.passed := rfl
@[simp] theorem State.enqueue_regs (o : Op) : (s.enqueue o).regs = s.regs := rfl
@[simp] theorem State.enqueue_conns (o : Op) : (s.enqueue o).conns = s.conns := rfl
@[simp] theorem State.enqueue_connSeq (o : Op) : (s.enqueue o).connSeq = s.connSeq := rfl
@[simp] theorem State.enqueue_requests (o : Op) : (s.enqueue o).requests = s.requests := rfl
@[simp] theorem State.enqueue_budgets (o : Op) : (s.enqueue o).budgets = s.budgets := rfl
@[simp] theorem State.enqueue_admissions (o : Op) : (s.enqueue o).admissions = s.admissions := rfl
@[simp] theorem State.enqueue_store (o : Op) : (s.enqueue o).store = s.store := rfl
@[simp] theorem State.enqueue_start (o : Op) : (s.enqueue o).start = s.start := rfl
@[simp] theorem State.enqueue_power (o : Op) : (s.enqueue o).power = s.power := rfl
@[simp] theorem State.enqueue_health (o : Op) : (s.enqueue o).health = s.health := rfl
@[simp] theorem State.enqueue_drive (o : Op) : (s.enqueue o).drive = s.drive := rfl
@[simp] theorem State.enqueue_catalogue (o : Op) : (s.enqueue o).catalogue = s.catalogue := rfl
@[simp] theorem State.enqueue_sentParts (o : Op) : (s.enqueue o).sentParts = s.sentParts := rfl
@[simp] theorem State.enqueue_switches (o : Op) : (s.enqueue o).switches = s.switches := rfl
@[simp] theorem State.enqueue_switchLog (o : Op) : (s.enqueue o).switchLog = s.switchLog := rfl
@[simp] theorem State.enqueue_log (o : Op) : (s.enqueue o).log = s.log := rfl
@[simp] theorem State.enqueue_kept (o : Op) : (s.enqueue o).kept = s.kept := rfl
@[simp] theorem State.enqueue_recordRoom (o : Op) : (s.enqueue o).recordRoom = s.recordRoom := rfl
@[simp] theorem State.enqueue_clearing (o : Op) : (s.enqueue o).clearing = s.clearing := rfl
@[simp] theorem State.enqueue_fills (o : Op) : (s.enqueue o).fills = s.fills := rfl

/-! ### State.emit -/

@[simp] theorem State.emit_pending (o : Op) (due phase : Nat) (a : Act) : (s.emit o due phase a).pending = s.pending := rfl
@[simp] theorem State.emit_now (o : Op) (due phase : Nat) (a : Act) : (s.emit o due phase a).now = s.now := rfl
@[simp] theorem State.emit_draws (o : Op) (due phase : Nat) (a : Act) : (s.emit o due phase a).draws = s.draws := rfl
@[simp] theorem State.emit_issues (o : Op) (due phase : Nat) (a : Act) : (s.emit o due phase a).issues = s.issues := rfl
@[simp] theorem State.emit_cmdSeq (o : Op) (due phase : Nat) (a : Act) : (s.emit o due phase a).cmdSeq = s.cmdSeq := rfl
@[simp] theorem State.emit_acts (o : Op) (due phase : Nat) (a : Act) : (s.emit o due phase a).acts = s.acts := rfl
@[simp] theorem State.emit_tickAt (o : Op) (due phase : Nat) (a : Act) : (s.emit o due phase a).tickAt = s.tickAt := rfl
@[simp] theorem State.emit_taken (o : Op) (due phase : Nat) (a : Act) : (s.emit o due phase a).taken = s.taken := rfl
@[simp] theorem State.emit_tiles (o : Op) (due phase : Nat) (a : Act) : (s.emit o due phase a).tiles = s.tiles := rfl
@[simp] theorem State.emit_tier1 (o : Op) (due phase : Nat) (a : Act) : (s.emit o due phase a).tier1 = s.tier1 := rfl
@[simp] theorem State.emit_tier2 (o : Op) (due phase : Nat) (a : Act) : (s.emit o due phase a).tier2 = s.tier2 := rfl
@[simp] theorem State.emit_hub (o : Op) (due phase : Nat) (a : Act) : (s.emit o due phase a).hub = s.hub := rfl
@[simp] theorem State.emit_ctls (o : Op) (due phase : Nat) (a : Act) : (s.emit o due phase a).ctls = s.ctls := rfl
@[simp] theorem State.emit_links (o : Op) (due phase : Nat) (a : Act) : (s.emit o due phase a).links = s.links := rfl
@[simp] theorem State.emit_routes (o : Op) (due phase : Nat) (a : Act) : (s.emit o due phase a).routes = s.routes := rfl
@[simp] theorem State.emit_parts (o : Op) (due phase : Nat) (a : Act) : (s.emit o due phase a).parts = s.parts := rfl
@[simp] theorem State.emit_images (o : Op) (due phase : Nat) (a : Act) : (s.emit o due phase a).images = s.images := rfl
@[simp] theorem State.emit_jobs (o : Op) (due phase : Nat) (a : Act) : (s.emit o due phase a).jobs = s.jobs := rfl
@[simp] theorem State.emit_plumb (o : Op) (due phase : Nat) (a : Act) : (s.emit o due phase a).plumb = s.plumb := rfl
@[simp] theorem State.emit_lostDies (o : Op) (due phase : Nat) (a : Act) : (s.emit o due phase a).lostDies = s.lostDies := rfl
@[simp] theorem State.emit_failed (o : Op) (due phase : Nat) (a : Act) : (s.emit o due phase a).failed = s.failed := rfl
@[simp] theorem State.emit_lossAt (o : Op) (due phase : Nat) (a : Act) : (s.emit o due phase a).lossAt = s.lossAt := rfl
@[simp] theorem State.emit_variantB (o : Op) (due phase : Nat) (a : Act) : (s.emit o due phase a).variantB = s.variantB := rfl
@[simp] theorem State.emit_number (o : Op) (due phase : Nat) (a : Act) : (s.emit o due phase a).number = s.number := rfl
@[simp] theorem State.emit_serial (o : Op) (due phase : Nat) (a : Act) : (s.emit o due phase a).serial = s.serial := rfl
@[simp] theorem State.emit_idHash (o : Op) (due phase : Nat) (a : Act) : (s.emit o due phase a).idHash = s.idHash := rfl
@[simp] theorem State.emit_firmware (o : Op) (due phase : Nat) (a : Act) : (s.emit o due phase a).firmware = s.firmware := rfl
@[simp] theorem State.emit_firmwareDigest (o : Op) (due phase : Nat) (a : Act) : (s.emit o due phase a).firmwareDigest = s.firmwareDigest := rfl
@[simp] theorem State.emit_quiescing (o : Op) (due phase : Nat) (a : Act) : (s.emit o due phase a).quiescing = s.quiescing := rfl
@[simp] theorem State.emit_quiesce (o : Op) (due phase : Nat) (a : Act) : (s.emit o due phase a).quiesce = s.quiesce := rfl
@[simp] theorem State.emit_inbox (o : Op) (due phase : Nat) (a : Act) : (s.emit o due phase a).inbox = s.inbox := rfl
@[simp] theorem State.emit_messages (o : Op) (due phase : Nat) (a : Act) : (s.emit o due phase a).messages = s.messages := rfl
@[simp] theorem State.emit_wins (o : Op) (due phase : Nat) (a : Act) : (s.emit o due phase a).wins = s.wins := rfl
@[simp] theorem State.emit_cmds (o : Op) (due phase : Nat) (a : Act) : (s.emit o due phase a).cmds = s.cmds := rfl
@[simp] theorem State.emit_passed (o : Op) (due phase : Nat) (a : Act) : (s.emit o due phase a).passed = s.passed := rfl
@[simp] theorem State.emit_regs (o : Op) (due phase : Nat) (a : Act) : (s.emit o due phase a).regs = s.regs := rfl
@[simp] theorem State.emit_conns (o : Op) (due phase : Nat) (a : Act) : (s.emit o due phase a).conns = s.conns := rfl
@[simp] theorem State.emit_connSeq (o : Op) (due phase : Nat) (a : Act) : (s.emit o due phase a).connSeq = s.connSeq := rfl
@[simp] theorem State.emit_requests (o : Op) (due phase : Nat) (a : Act) : (s.emit o due phase a).requests = s.requests := rfl
@[simp] theorem State.emit_budgets (o : Op) (due phase : Nat) (a : Act) : (s.emit o due phase a).budgets = s.budgets := rfl
@[simp] theorem State.emit_admissions (o : Op) (due phase : Nat) (a : Act) : (s.emit o due phase a).admissions = s.admissions := rfl
@[simp] theorem State.emit_store (o : Op) (due phase : Nat) (a : Act) : (s.emit o due phase a).store = s.store := rfl
@[simp] theorem State.emit_start (o : Op) (due phase : Nat) (a : Act) : (s.emit o due phase a).start = s.start := rfl
@[simp] theorem State.emit_power (o : Op) (due phase : Nat) (a : Act) : (s.emit o due phase a).power = s.power := rfl
@[simp] theorem State.emit_health (o : Op) (due phase : Nat) (a : Act) : (s.emit o due phase a).health = s.health := rfl
@[simp] theorem State.emit_drive (o : Op) (due phase : Nat) (a : Act) : (s.emit o due phase a).drive = s.drive := rfl
@[simp] theorem State.emit_catalogue (o : Op) (due phase : Nat) (a : Act) : (s.emit o due phase a).catalogue = s.catalogue := rfl
@[simp] theorem State.emit_sentParts (o : Op) (due phase : Nat) (a : Act) : (s.emit o due phase a).sentParts = s.sentParts := rfl
@[simp] theorem State.emit_switches (o : Op) (due phase : Nat) (a : Act) : (s.emit o due phase a).switches = s.switches := rfl
@[simp] theorem State.emit_switchLog (o : Op) (due phase : Nat) (a : Act) : (s.emit o due phase a).switchLog = s.switchLog := rfl
@[simp] theorem State.emit_log (o : Op) (due phase : Nat) (a : Act) : (s.emit o due phase a).log = s.log := rfl
@[simp] theorem State.emit_kept (o : Op) (due phase : Nat) (a : Act) : (s.emit o due phase a).kept = s.kept := rfl
@[simp] theorem State.emit_recordRoom (o : Op) (due phase : Nat) (a : Act) : (s.emit o due phase a).recordRoom = s.recordRoom := rfl
@[simp] theorem State.emit_clearing (o : Op) (due phase : Nat) (a : Act) : (s.emit o due phase a).clearing = s.clearing := rfl
@[simp] theorem State.emit_fills (o : Op) (due phase : Nat) (a : Act) : (s.emit o due phase a).fills = s.fills := rfl

/-! ### State.plan -/

@[simp] theorem State.plan_pending (at_ : Nat) (a : FrameAct) : (s.plan at_ a).pending = s.pending := rfl
@[simp] theorem State.plan_now (at_ : Nat) (a : FrameAct) : (s.plan at_ a).now = s.now := rfl
@[simp] theorem State.plan_draws (at_ : Nat) (a : FrameAct) : (s.plan at_ a).draws = s.draws := rfl
@[simp] theorem State.plan_issues (at_ : Nat) (a : FrameAct) : (s.plan at_ a).issues = s.issues := rfl
@[simp] theorem State.plan_opSeq (at_ : Nat) (a : FrameAct) : (s.plan at_ a).opSeq = s.opSeq := rfl
@[simp] theorem State.plan_cmdSeq (at_ : Nat) (a : FrameAct) : (s.plan at_ a).cmdSeq = s.cmdSeq := rfl
@[simp] theorem State.plan_inflight (at_ : Nat) (a : FrameAct) : (s.plan at_ a).inflight = s.inflight := rfl
@[simp] theorem State.plan_tickAt (at_ : Nat) (a : FrameAct) : (s.plan at_ a).tickAt = s.tickAt := rfl
@[simp] theorem State.plan_taken (at_ : Nat) (a : FrameAct) : (s.plan at_ a).taken = s.taken := rfl
@[simp] theorem State.plan_tiles (at_ : Nat) (a : FrameAct) : (s.plan at_ a).tiles = s.tiles := rfl
@[simp] theorem State.plan_tier1 (at_ : Nat) (a : FrameAct) : (s.plan at_ a).tier1 = s.tier1 := rfl
@[simp] theorem State.plan_tier2 (at_ : Nat) (a : FrameAct) : (s.plan at_ a).tier2 = s.tier2 := rfl
@[simp] theorem State.plan_hub (at_ : Nat) (a : FrameAct) : (s.plan at_ a).hub = s.hub := rfl
@[simp] theorem State.plan_ctls (at_ : Nat) (a : FrameAct) : (s.plan at_ a).ctls = s.ctls := rfl
@[simp] theorem State.plan_links (at_ : Nat) (a : FrameAct) : (s.plan at_ a).links = s.links := rfl
@[simp] theorem State.plan_routes (at_ : Nat) (a : FrameAct) : (s.plan at_ a).routes = s.routes := rfl
@[simp] theorem State.plan_parts (at_ : Nat) (a : FrameAct) : (s.plan at_ a).parts = s.parts := rfl
@[simp] theorem State.plan_images (at_ : Nat) (a : FrameAct) : (s.plan at_ a).images = s.images := rfl
@[simp] theorem State.plan_jobs (at_ : Nat) (a : FrameAct) : (s.plan at_ a).jobs = s.jobs := rfl
@[simp] theorem State.plan_plumb (at_ : Nat) (a : FrameAct) : (s.plan at_ a).plumb = s.plumb := rfl
@[simp] theorem State.plan_lostDies (at_ : Nat) (a : FrameAct) : (s.plan at_ a).lostDies = s.lostDies := rfl
@[simp] theorem State.plan_failed (at_ : Nat) (a : FrameAct) : (s.plan at_ a).failed = s.failed := rfl
@[simp] theorem State.plan_lossAt (at_ : Nat) (a : FrameAct) : (s.plan at_ a).lossAt = s.lossAt := rfl
@[simp] theorem State.plan_variantB (at_ : Nat) (a : FrameAct) : (s.plan at_ a).variantB = s.variantB := rfl
@[simp] theorem State.plan_number (at_ : Nat) (a : FrameAct) : (s.plan at_ a).number = s.number := rfl
@[simp] theorem State.plan_serial (at_ : Nat) (a : FrameAct) : (s.plan at_ a).serial = s.serial := rfl
@[simp] theorem State.plan_idHash (at_ : Nat) (a : FrameAct) : (s.plan at_ a).idHash = s.idHash := rfl
@[simp] theorem State.plan_firmware (at_ : Nat) (a : FrameAct) : (s.plan at_ a).firmware = s.firmware := rfl
@[simp] theorem State.plan_firmwareDigest (at_ : Nat) (a : FrameAct) : (s.plan at_ a).firmwareDigest = s.firmwareDigest := rfl
@[simp] theorem State.plan_quiescing (at_ : Nat) (a : FrameAct) : (s.plan at_ a).quiescing = s.quiescing := rfl
@[simp] theorem State.plan_quiesce (at_ : Nat) (a : FrameAct) : (s.plan at_ a).quiesce = s.quiesce := rfl
@[simp] theorem State.plan_inbox (at_ : Nat) (a : FrameAct) : (s.plan at_ a).inbox = s.inbox := rfl
@[simp] theorem State.plan_messages (at_ : Nat) (a : FrameAct) : (s.plan at_ a).messages = s.messages := rfl
@[simp] theorem State.plan_wins (at_ : Nat) (a : FrameAct) : (s.plan at_ a).wins = s.wins := rfl
@[simp] theorem State.plan_cmds (at_ : Nat) (a : FrameAct) : (s.plan at_ a).cmds = s.cmds := rfl
@[simp] theorem State.plan_passed (at_ : Nat) (a : FrameAct) : (s.plan at_ a).passed = s.passed := rfl
@[simp] theorem State.plan_regs (at_ : Nat) (a : FrameAct) : (s.plan at_ a).regs = s.regs := rfl
@[simp] theorem State.plan_conns (at_ : Nat) (a : FrameAct) : (s.plan at_ a).conns = s.conns := rfl
@[simp] theorem State.plan_connSeq (at_ : Nat) (a : FrameAct) : (s.plan at_ a).connSeq = s.connSeq := rfl
@[simp] theorem State.plan_requests (at_ : Nat) (a : FrameAct) : (s.plan at_ a).requests = s.requests := rfl
@[simp] theorem State.plan_budgets (at_ : Nat) (a : FrameAct) : (s.plan at_ a).budgets = s.budgets := rfl
@[simp] theorem State.plan_admissions (at_ : Nat) (a : FrameAct) : (s.plan at_ a).admissions = s.admissions := rfl
@[simp] theorem State.plan_store (at_ : Nat) (a : FrameAct) : (s.plan at_ a).store = s.store := rfl
@[simp] theorem State.plan_start (at_ : Nat) (a : FrameAct) : (s.plan at_ a).start = s.start := rfl
@[simp] theorem State.plan_power (at_ : Nat) (a : FrameAct) : (s.plan at_ a).power = s.power := rfl
@[simp] theorem State.plan_health (at_ : Nat) (a : FrameAct) : (s.plan at_ a).health = s.health := rfl
@[simp] theorem State.plan_drive (at_ : Nat) (a : FrameAct) : (s.plan at_ a).drive = s.drive := rfl
@[simp] theorem State.plan_catalogue (at_ : Nat) (a : FrameAct) : (s.plan at_ a).catalogue = s.catalogue := rfl
@[simp] theorem State.plan_sentParts (at_ : Nat) (a : FrameAct) : (s.plan at_ a).sentParts = s.sentParts := rfl
@[simp] theorem State.plan_switches (at_ : Nat) (a : FrameAct) : (s.plan at_ a).switches = s.switches := rfl
@[simp] theorem State.plan_switchLog (at_ : Nat) (a : FrameAct) : (s.plan at_ a).switchLog = s.switchLog := rfl
@[simp] theorem State.plan_log (at_ : Nat) (a : FrameAct) : (s.plan at_ a).log = s.log := rfl
@[simp] theorem State.plan_kept (at_ : Nat) (a : FrameAct) : (s.plan at_ a).kept = s.kept := rfl
@[simp] theorem State.plan_recordRoom (at_ : Nat) (a : FrameAct) : (s.plan at_ a).recordRoom = s.recordRoom := rfl
@[simp] theorem State.plan_clearing (at_ : Nat) (a : FrameAct) : (s.plan at_ a).clearing = s.clearing := rfl
@[simp] theorem State.plan_fills (at_ : Nat) (a : FrameAct) : (s.plan at_ a).fills = s.fills := rfl

/-! ### State.answer -/

@[simp] theorem State.answer_pending (p : Cmd → Bool) (r : Cmd → Reply) : (s.answer p r).pending = s.pending := rfl
@[simp] theorem State.answer_now (p : Cmd → Bool) (r : Cmd → Reply) : (s.answer p r).now = s.now := rfl
@[simp] theorem State.answer_draws (p : Cmd → Bool) (r : Cmd → Reply) : (s.answer p r).draws = s.draws := rfl
@[simp] theorem State.answer_issues (p : Cmd → Bool) (r : Cmd → Reply) : (s.answer p r).issues = s.issues := rfl
@[simp] theorem State.answer_opSeq (p : Cmd → Bool) (r : Cmd → Reply) : (s.answer p r).opSeq = s.opSeq := rfl
@[simp] theorem State.answer_cmdSeq (p : Cmd → Bool) (r : Cmd → Reply) : (s.answer p r).cmdSeq = s.cmdSeq := rfl
@[simp] theorem State.answer_inflight (p : Cmd → Bool) (r : Cmd → Reply) : (s.answer p r).inflight = s.inflight := rfl
@[simp] theorem State.answer_acts (p : Cmd → Bool) (r : Cmd → Reply) : (s.answer p r).acts = s.acts := rfl
@[simp] theorem State.answer_tickAt (p : Cmd → Bool) (r : Cmd → Reply) : (s.answer p r).tickAt = s.tickAt := rfl
@[simp] theorem State.answer_taken (p : Cmd → Bool) (r : Cmd → Reply) : (s.answer p r).taken = s.taken := rfl
@[simp] theorem State.answer_tiles (p : Cmd → Bool) (r : Cmd → Reply) : (s.answer p r).tiles = s.tiles := rfl
@[simp] theorem State.answer_tier1 (p : Cmd → Bool) (r : Cmd → Reply) : (s.answer p r).tier1 = s.tier1 := rfl
@[simp] theorem State.answer_tier2 (p : Cmd → Bool) (r : Cmd → Reply) : (s.answer p r).tier2 = s.tier2 := rfl
@[simp] theorem State.answer_hub (p : Cmd → Bool) (r : Cmd → Reply) : (s.answer p r).hub = s.hub := rfl
@[simp] theorem State.answer_ctls (p : Cmd → Bool) (r : Cmd → Reply) : (s.answer p r).ctls = s.ctls := rfl
@[simp] theorem State.answer_links (p : Cmd → Bool) (r : Cmd → Reply) : (s.answer p r).links = s.links := rfl
@[simp] theorem State.answer_routes (p : Cmd → Bool) (r : Cmd → Reply) : (s.answer p r).routes = s.routes := rfl
@[simp] theorem State.answer_parts (p : Cmd → Bool) (r : Cmd → Reply) : (s.answer p r).parts = s.parts := rfl
@[simp] theorem State.answer_images (p : Cmd → Bool) (r : Cmd → Reply) : (s.answer p r).images = s.images := rfl
@[simp] theorem State.answer_jobs (p : Cmd → Bool) (r : Cmd → Reply) : (s.answer p r).jobs = s.jobs := rfl
@[simp] theorem State.answer_plumb (p : Cmd → Bool) (r : Cmd → Reply) : (s.answer p r).plumb = s.plumb := rfl
@[simp] theorem State.answer_lostDies (p : Cmd → Bool) (r : Cmd → Reply) : (s.answer p r).lostDies = s.lostDies := rfl
@[simp] theorem State.answer_failed (p : Cmd → Bool) (r : Cmd → Reply) : (s.answer p r).failed = s.failed := rfl
@[simp] theorem State.answer_lossAt (p : Cmd → Bool) (r : Cmd → Reply) : (s.answer p r).lossAt = s.lossAt := rfl
@[simp] theorem State.answer_variantB (p : Cmd → Bool) (r : Cmd → Reply) : (s.answer p r).variantB = s.variantB := rfl
@[simp] theorem State.answer_number (p : Cmd → Bool) (r : Cmd → Reply) : (s.answer p r).number = s.number := rfl
@[simp] theorem State.answer_serial (p : Cmd → Bool) (r : Cmd → Reply) : (s.answer p r).serial = s.serial := rfl
@[simp] theorem State.answer_idHash (p : Cmd → Bool) (r : Cmd → Reply) : (s.answer p r).idHash = s.idHash := rfl
@[simp] theorem State.answer_firmware (p : Cmd → Bool) (r : Cmd → Reply) : (s.answer p r).firmware = s.firmware := rfl
@[simp] theorem State.answer_firmwareDigest (p : Cmd → Bool) (r : Cmd → Reply) : (s.answer p r).firmwareDigest = s.firmwareDigest := rfl
@[simp] theorem State.answer_quiescing (p : Cmd → Bool) (r : Cmd → Reply) : (s.answer p r).quiescing = s.quiescing := rfl
@[simp] theorem State.answer_quiesce (p : Cmd → Bool) (r : Cmd → Reply) : (s.answer p r).quiesce = s.quiesce := rfl
@[simp] theorem State.answer_inbox (p : Cmd → Bool) (r : Cmd → Reply) : (s.answer p r).inbox = s.inbox := rfl
@[simp] theorem State.answer_messages (p : Cmd → Bool) (r : Cmd → Reply) : (s.answer p r).messages = s.messages := rfl
@[simp] theorem State.answer_wins (p : Cmd → Bool) (r : Cmd → Reply) : (s.answer p r).wins = s.wins := rfl
@[simp] theorem State.answer_passed (p : Cmd → Bool) (r : Cmd → Reply) : (s.answer p r).passed = s.passed := rfl
@[simp] theorem State.answer_regs (p : Cmd → Bool) (r : Cmd → Reply) : (s.answer p r).regs = s.regs := rfl
@[simp] theorem State.answer_conns (p : Cmd → Bool) (r : Cmd → Reply) : (s.answer p r).conns = s.conns := rfl
@[simp] theorem State.answer_connSeq (p : Cmd → Bool) (r : Cmd → Reply) : (s.answer p r).connSeq = s.connSeq := rfl
@[simp] theorem State.answer_requests (p : Cmd → Bool) (r : Cmd → Reply) : (s.answer p r).requests = s.requests := rfl
@[simp] theorem State.answer_budgets (p : Cmd → Bool) (r : Cmd → Reply) : (s.answer p r).budgets = s.budgets := rfl
@[simp] theorem State.answer_admissions (p : Cmd → Bool) (r : Cmd → Reply) : (s.answer p r).admissions = s.admissions := rfl
@[simp] theorem State.answer_store (p : Cmd → Bool) (r : Cmd → Reply) : (s.answer p r).store = s.store := rfl
@[simp] theorem State.answer_start (p : Cmd → Bool) (r : Cmd → Reply) : (s.answer p r).start = s.start := rfl
@[simp] theorem State.answer_power (p : Cmd → Bool) (r : Cmd → Reply) : (s.answer p r).power = s.power := rfl
@[simp] theorem State.answer_health (p : Cmd → Bool) (r : Cmd → Reply) : (s.answer p r).health = s.health := rfl
@[simp] theorem State.answer_drive (p : Cmd → Bool) (r : Cmd → Reply) : (s.answer p r).drive = s.drive := rfl
@[simp] theorem State.answer_catalogue (p : Cmd → Bool) (r : Cmd → Reply) : (s.answer p r).catalogue = s.catalogue := rfl
@[simp] theorem State.answer_sentParts (p : Cmd → Bool) (r : Cmd → Reply) : (s.answer p r).sentParts = s.sentParts := rfl
@[simp] theorem State.answer_switches (p : Cmd → Bool) (r : Cmd → Reply) : (s.answer p r).switches = s.switches := rfl
@[simp] theorem State.answer_switchLog (p : Cmd → Bool) (r : Cmd → Reply) : (s.answer p r).switchLog = s.switchLog := rfl
@[simp] theorem State.answer_log (p : Cmd → Bool) (r : Cmd → Reply) : (s.answer p r).log = s.log := rfl
@[simp] theorem State.answer_kept (p : Cmd → Bool) (r : Cmd → Reply) : (s.answer p r).kept = s.kept := rfl
@[simp] theorem State.answer_recordRoom (p : Cmd → Bool) (r : Cmd → Reply) : (s.answer p r).recordRoom = s.recordRoom := rfl
@[simp] theorem State.answer_clearing (p : Cmd → Bool) (r : Cmd → Reply) : (s.answer p r).clearing = s.clearing := rfl
@[simp] theorem State.answer_fills (p : Cmd → Bool) (r : Cmd → Reply) : (s.answer p r).fills = s.fills := rfl

/-! ### What is read after an update -/

@[simp] theorem State.setTile_tile (i k : Nat) (x : Tile) : (s.setTile i x).tile k = if k = i then x else s.tile k := by
  simp [State.tile, State.setTile, SMap.getD_set]
@[simp] theorem State.updTile_tile (i k : Nat) (f : Tile → Tile) :
    (s.updTile i f).tile k = if k = i then f (s.tile i) else s.tile k := by
  simp [State.updTile]
@[simp] theorem State.setJob_job (j k : Nat) (x : Job) : (s.setJob j x).job k = if k = j then some x else s.job k := by
  simp [State.job, State.setJob, SMap.find_set]
@[simp] theorem State.updJob_job (j k : Nat) (f : Job → Job) :
    (s.updJob j f).job k = if k = j then (s.job j).map f else s.job k := by
  unfold State.updJob; split
  · rename_i x h; by_cases hk : k = j <;> simp [hk, h]
  · rename_i h; by_cases hk : k = j <;> simp [hk, h]
/-- The pool's other jobs follow; the job itself stands as it does (R285). -/
@[simp] theorem State.sharePool_job (j : Nat) : (s.sharePool j).job j = s.job j := by
  cases h : s.job j with
  | none => simp only [State.sharePool, State.pooledJobs, h]
  | some x =>
    cases hv : x.serve with
    | none => simp only [State.sharePool, State.pooledJobs, h, hv]
    | some v =>
      have e : (s.sharePool j).jobs = s.jobs.map (fun e =>
          (e.1, if e.1 ≠ j ∧ s.onePool x e.2 = true then { e.2 with serve := e.2.serve.map (fun w => w.withPool v) } else e.2)) := by
        simp only [State.sharePool, State.pooledJobs, h, hv]
      have h' : SMap.find s.jobs j = some x := h
      simp only [State.job, e]
      rw [SMap.find_mapKey s.jobs (fun k y => if k ≠ j ∧ s.onePool x y = true then { y with serve := y.serve.map (fun w => w.withPool v) } else y)]
      simp [h']
@[simp] theorem State.updServe_job (j k : Nat) (f : Serve → Serve) :
    (s.updServe j f).job k = if k = j then (s.job j).map (fun x => { x with serve := x.serve.map f }) else s.job k := by
  simp [State.updServe]
@[simp] theorem State.updPool_job (j : Nat) (f : Serve → Serve) :
    (s.updPool j f).job j = (s.job j).map (fun x => { x with serve := x.serve.map f }) := by
  simp [State.updPool]
@[simp] theorem State.updLink_link (l k : Nat) (f : Link → Link) :
    (s.updLink l f).link k = if k = l then f (s.link l) else s.link k := by
  simp [State.link, State.updLink, SMap.getD_set]
@[simp] theorem State.updCtl_ctl (c k : Nat) (f : Ctl → Ctl) : (s.updCtl c f).ctl k = if k = c then f (s.ctl c) else s.ctl k := by
  simp [State.ctl, State.updCtl, SMap.getD_set]
@[simp] theorem State.updPart_part (p k : Nat) (f : Part → Part) :
    (s.updPart p f).part k = if k = p then f (s.part p) else s.part k := by
  simp [State.part, State.updPart, SMap.getD_set]
@[simp] theorem State.updReq_req (e k : Nat) (f : Req → Req) : (s.updReq e f).req k = if k = e then f (s.req e) else s.req k := by
  simp [State.req, State.updReq, SMap.getD_set]
@[simp] theorem State.updWin_win (w k : Nat) (f : Win → Win) :
    (s.updWin w f).win k = if k = w ∧ (SMap.find s.wins w).isSome = true then f (s.win w) else s.win k := by
  unfold State.updWin; split
  · rename_i x h; by_cases hk : k = w <;> simp [State.win, hk, h, SMap.getD_eq_find, SMap.find_set]
  · rename_i h; simp [h]

/-! ### Updates of jobs change nothing but the jobs -/

theorem State.updJob_eq (j : Nat) (f : Job → Job) : s.updJob j f = { s with jobs := (s.updJob j f).jobs } := by
  unfold State.updJob; split <;> rfl
theorem State.updServe_eq (j : Nat) (f : Serve → Serve) : s.updServe j f = { s with jobs := (s.updServe j f).jobs } :=
  State.updJob_eq ..
theorem State.updPool_eq (j : Nat) (f : Serve → Serve) : s.updPool j f = { s with jobs := (s.updPool j f).jobs } := by
  unfold State.updPool State.sharePool; simp only; rw [State.updServe_eq]
theorem State.updWin_eq (w : Nat) (f : Win → Win) : s.updWin w f = { s with wins := (s.updWin w f).wins } := by
  unfold State.updWin; split <;> rfl

end Sys2Proof.Machine
end

