-- ==== Sys2Proof/Laws/Ops.lean ====
section
/-!
SUPPORT. Sys2Proof/Laws/Ops.lean: what each named operation over the state leaves to be read, and what is in flight or planned
after it.
-/
namespace Sys2Proof.Machine

/-- A scoreboard entry after one is set. -/
theorem Tile.setEntry_entry (t : Tile) (e k : Nat) (v : Entry) : (t.setEntry e v).entry k = if k = e then v else t.entry k := by
  simp only [Tile.setEntry, Tile.entry]
  by_cases hv : v = .empty
  · by_cases h : k = e
    · subst h; simp [hv, SMap.getD_eq_find]
    · simp [hv, h, SMap.getD_erase_ne]
  · simp [hv, SMap.getD_set]

/-! ### In flight -/

/-- What is in flight after a micro-operation is put there. -/
theorem State.mem_enqueue (s : State) (o x : Op) : x ∈ (s.enqueue o).inflight ↔ x = o ∨ x ∈ s.inflight := by
  simp [State.enqueue]

theorem State.mem_emit (s : State) (o x : Op) (due phase : Nat) (a : Act) :
    x ∈ (s.emit o due phase a).inflight ↔ x = { o with due := due, phase := phase, seq := s.opSeq, act := a } ∨ x ∈ s.inflight := by
  simp [State.emit, State.enqueue]

/-- Telling a controller to the micro-operations of an issue changes nothing else of them. -/
theorem State.mem_setOpCtl (s : State) (id c : Nat) {x : Op} (h : x ∈ s.inflight) :
    (if x.id = id then { x with ctl := some c } else x) ∈ (s.setOpCtl id c).inflight := by
  simp only [State.setOpCtl, List.mem_map]
  exact ⟨x, h, rfl⟩

/-- What is planned after something is planned. -/
theorem State.mem_plan (s : State) (t : Nat) (a : FrameAct) (x : Nat × FrameAct) :
    x ∈ (s.plan t a).acts ↔ x = (t, a) ∨ x ∈ s.acts := by
  simp [State.plan]

/-! ### The clock -/

/-- Nothing is planned: nothing is carried out. -/
theorem State.settle_nil (s : State) (t : Nat) (h : s.acts = []) : s.settle t = s := by
  simp [State.settle, h, settleActs]

theorem runDue_nil (t k : Nat) (s : State) (h : s.inflight = []) : runDue t k s = s := by
  cases k <;> simp [runDue, h]

/-- The first micro-operation in flight runs when it falls due. -/
theorem runDue_due (t k : Nat) (s : State) (o : Op) (rest : List Op) (h : s.inflight = o :: rest) (hd : o.dueBy t = true) :
    runDue t (k + 1) s = runDue t k (runOp { s with inflight := rest, now := max s.now o.due } o) := by
  rw [runDue, h]; simp [hd]

/-- The first micro-operation in flight is not due: nothing runs. -/
theorem runDue_later (t k : Nat) (s : State) (o : Op) (rest : List Op) (h : s.inflight = o :: rest) (hd : o.dueBy t = false) :
    runDue t k s = s := by
  cases k <;> simp [runDue, h, hd]

/-- There is always fuel for more than is in flight. -/
theorem State.fuel_eq (s : State) : ∃ k, s.fuel = k + s.inflight.length + 2 := by
  refine ⟨4096 * (s.inflight.length + 1) - s.inflight.length - 2, ?_⟩
  simp only [State.fuel]; omega

/-! ### Answers -/

/-- The commands after some are answered. -/
theorem State.answer_cmds (s : State) (fits : Cmd → Bool) (r : Cmd → Reply) :
    (s.answer fits r).cmds = s.cmds.map (fun c => if c.waiting && fits c then { c with reply := some (r c) } else c) := rfl

/-- A command that no answer fits stays as it is. -/
theorem State.mem_answer_keep (s : State) (fits : Cmd → Bool) (r : Cmd → Reply) {c : Cmd} (h : c ∈ s.cmds) (hf : fits c = false) :
    c ∈ (s.answer fits r).cmds := by
  rw [State.answer_cmds, List.mem_map]
  exact ⟨c, h, by simp [hf]⟩

/-- A waiting command that an answer fits is answered. -/
theorem State.mem_answer_reply (s : State) (fits : Cmd → Bool) (r : Cmd → Reply) {c : Cmd} (h : c ∈ s.cmds) (hw : c.waiting = true)
    (hf : fits c = true) : { c with reply := some (r c) } ∈ (s.answer fits r).cmds := by
  rw [State.answer_cmds, List.mem_map]
  exact ⟨c, h, by simp [hw, hf]⟩

end Sys2Proof.Machine
end

