-- ==== Sys2Proof/Laws/Host.lean ====
section
/-!
SUPPORT. Sys2Proof/Laws/Host.lean: the way of a host command (R408 to R417), from its row to its handler and its reply.
-/
namespace Sys2Proof.Machine

theorem packetBytes_length (op seq : Nat) (c : Call) : (packetBytes op seq c).length = 64 := by
  simp [packetBytes, fitTo]; omega

/-- Reading behind what was written reads what stood there. -/
theorem Mem.read_write_behind (m : Mem) (a b n : Nat) (bs : List Byte) (h : a + bs.length ≤ b) :
    Mem.read (Mem.write m a bs) b n = Mem.read m b n := by
  unfold Mem.read Mem.write
  congr 1
  simp only [List.filter_append, List.filter_filter]
  have h1 : m.filter (fun e => decide (b ≤ e.1) && decide (e.1 < b + n) && decide (e.1 < a)) = [] := by
    rw [List.filter_eq_nil_iff]; intro e _; simp; omega
  have h2 : (Mem.cells a bs).filter (fun e => decide (b ≤ e.1) && decide (e.1 < b + n)) = [] := by
    rw [List.filter_eq_nil_iff]; intro e he; have := Mem.cells_range he; simp; omega
  rw [h1, h2]; simp
  apply List.filter_congr; intro e _
  rw [Bool.eq_iff_iff]; simp; omega

/-- A packet in its slot leaves the parameter area as it was. -/
theorem blockOf_writePacket (u : State) (op : Nat) (c c' : Call) : blockOf (writePacket u op c) c' = blockOf u c' := by
  unfold blockOf; split
  · simp only [writePacket, State.updWin_win]
    split
    · rename_i h1
      split
      · split
        · simp only; rw [h1.1, Mem.read_write_behind]
          rw [packetBytes_length]; simp only [slotAt, paramArea]; omega
        · rw [h1.1]
      · rw [h1.1]
    · rfl
  · rfl

/-- Every host row runs the one operation of host commands. -/
theorem hostRow_exec {i : Instr} {s : State} {dt op : Nat} {c : Call}
    (h : hostRow i = some (dt, op, c)) (hw : i.wf = true) :
    exec i s = .next (hostCommand s dt op c) ∧ c.wf = true ∧ op < 65536 := by
  cases i <;> simp only [hostRow, Option.some.injEq, Prod.mk.injEq, reduceCtorEq] at h <;> obtain ⟨rfl, rfl, rfl⟩ := h <;>
    exact ⟨rfl, hw, by decide⟩

/-- A packet collected where no command is at work (R411, R413): Expected rises, and the first check that fails is answered. -/
theorem collect_alone (u : State) (op : Nat) (c : Call) (hc : u.cmds = []) :
    collect u op c = { collectedIn u op c with
      cmds := [{ cmdOf u op c with started := false, reply := (firstCheck u op c (blockOf u c)).map (refusal u.now) }] } := by
  simp [collect, hc, collectedIn, cmdOf]

/-- A command in whose service firmware meets no memory error has its handler's effect. -/
theorem served_clean (v : State) (x : Cmd) (h : x.call.mem = []) : served v x = handle v x := by
  simp [served, h, anyLost, countAll]

/-- The only command at work is served, and is answered where its handler answers. -/
theorem performAll_alone (v : State) (x : Cmd) (hc : v.cmds = [x]) (hr : x.reply = none) (hs : x.started = true)
    (hg : gate v x = none) :
    performAll 1 { v with cmds := [{ x with started := false }] } = match (served v x).2 with
      | some rep => (served v x).1.answer (fun y => y.id == x.id) (fun _ => rep)
      | none => (served v x).1 := by
  have hx : { { x with started := false } with started := true } = x := by cases x; simp_all
  have e : ({ ({ v with cmds := [{ x with started := false }] } : State) with cmds := [x] } : State) = v := by rw [← hc]
  have hd : ({ v with cmds := [{ x with started := false }] } : State).due.head? = some { x with started := false } := by
    simp [State.due, Cmd.waiting, Cmd.holds, hr]
  simp only [performAll, hd]
  simp only [perform, List.find?_cons, beq_self_eq_true, List.map_cons, if_true, List.map_nil]
  simp only [hx]
  simp only [e, hg]

end Sys2Proof.Machine
end

