-- ==== Sys2Proof/Laws/Issue.lean ====
section
/-!
SUPPORT. Sys2Proof/Laws/Issue.lean: what the work of an issue can do to the state: everything but the issue's own tile, the jobs
and what is in flight stays as it was, and nothing in flight is lost.
-/
namespace Sys2Proof.Machine

/-- What an issue's work leaves of its own tile: the scoreboard and the scratchpad. -/
def Tile.still (x : Tile) : SMap Entry × Mem := (x.score, x.scratch)

/-- The frame of an issue's work on a tile. With `lk` the links stay as they were. -/
structure IssueFrame (lk : Bool) (tile : Nat) (s t : State) : Prop where
  eq : t = { s with draws := t.draws, opSeq := t.opSeq, inflight := t.inflight, taken := t.taken, tiles := t.tiles, links := t.links,
                    jobs := t.jobs }
  other : ∀ k, k ≠ tile → t.tile k = s.tile k
  still : (t.tile tile).still = (s.tile tile).still
  links : lk = true → t.links = s.links
  flight : ∀ x, x ∈ s.inflight → ∃ y, y ∈ t.inflight ∧ y = { x with ctl := y.ctl }

variable {lk : Bool} {tile : Nat} {s t u : State}

theorem IssueFrame.rfl : IssueFrame lk tile s s := ⟨Eq.refl _, fun _ _ => Eq.refl _, Eq.refl _, fun _ => Eq.refl _, fun x h => ⟨x, h, Eq.refl _⟩⟩

theorem IssueFrame.trans (h : IssueFrame lk tile s t) (g : IssueFrame lk tile t u) : IssueFrame lk tile s u where
  eq := by rw [g.eq, h.eq]
  other := fun k hk => (g.other k hk).trans (h.other k hk)
  still := g.still.trans h.still
  links := fun hl => (g.links hl).trans (h.links hl)
  flight := fun x hx => by
    obtain ⟨y, hy, e⟩ := h.flight x hx
    obtain ⟨z, hz, e'⟩ := g.flight y hy
    exact ⟨z, hz, by rw [e', e]⟩

theorem IssueFrame.weaken (h : IssueFrame true tile s t) : IssueFrame lk tile s t :=
  ⟨h.eq, h.other, h.still, fun _ => h.links (Eq.refl _), h.flight⟩

theorem IssueFrame.now (h : IssueFrame lk tile s t) : t.now = s.now := by rw [h.eq]

theorem emit_frame (o : Op) (due phase : Nat) (a : Act) : IssueFrame lk tile s (s.emit o due phase a) :=
  ⟨Eq.refl _, fun _ _ => Eq.refl _, Eq.refl _, fun _ => Eq.refl _,
   fun x h => ⟨x, (State.mem_emit s o x due phase a).2 (.inr h), Eq.refl _⟩⟩

theorem completeAt_frame (o : Op) (r : IssueRec) (n : Nat) : IssueFrame lk tile s (s.completeAt o r n) := emit_frame ..

theorem enqueue_frame (o : Op) : IssueFrame lk tile s (s.enqueue o) :=
  ⟨Eq.refl _, fun _ _ => Eq.refl _, Eq.refl _, fun _ => Eq.refl _, fun x h => ⟨x, (State.mem_enqueue s o x).2 (.inr h), Eq.refl _⟩⟩

theorem setOpCtl_frame (id c : Nat) : IssueFrame lk tile s (s.setOpCtl id c) :=
  ⟨Eq.refl _, fun _ _ => Eq.refl _, Eq.refl _, fun _ => Eq.refl _,
   fun x h => ⟨_, State.mem_setOpCtl s id c h, by split <;> exact Eq.refl _⟩⟩

theorem access_frame (o : Op) (p : Part) (pid res grant : Nat) (t2 : Bool) (arr n : Nat) :
    IssueFrame lk tile s (s.access o p pid res grant t2 arr n) := by
  unfold State.access; split
  · exact enqueue_frame _
  · exact emit_frame ..

/-- A change of the issue's own tile that keeps its scoreboard and its scratchpad. -/
theorem updTile_frame (f : Tile → Tile) (h : ∀ x, (f x).still = x.still) : IssueFrame lk tile s (s.updTile tile f) :=
  ⟨Eq.refl _, fun k hk => by simp [hk], by simp [h], fun _ => Eq.refl _, fun x hx => ⟨x, hx, Eq.refl _⟩⟩

theorem setTile_frame (x : Tile) (h : x.still = (s.tile tile).still) : IssueFrame lk tile s (s.setTile tile x) :=
  ⟨Eq.refl _, fun k hk => by simp [hk], by simp [h], fun _ => Eq.refl _, fun x hx => ⟨x, hx, Eq.refl _⟩⟩

theorem addSum_frame (f : ArithSum → ArithSum) : IssueFrame lk tile s (s.addSum tile f) := updTile_frame _ (fun _ => Eq.refl _)

theorem missGrant_frame : IssueFrame lk tile s (missGrant s tile) := updTile_frame _ (fun _ => Eq.refl _)

theorem jobs_frame (m : SMap Job) : IssueFrame lk tile s { s with jobs := m } :=
  ⟨Eq.refl _, fun _ _ => Eq.refl _, Eq.refl _, fun _ => Eq.refl _, fun x hx => ⟨x, hx, Eq.refl _⟩⟩

theorem setJob_frame (k : Nat) (j : Job) : IssueFrame lk tile s (s.setJob k j) := jobs_frame _

theorem updJob_frame (k : Nat) (f : Job → Job) : IssueFrame lk tile s (s.updJob k f) := by
  unfold State.updJob; split
  · exact setJob_frame ..
  · exact .rfl

theorem updRun_frame (k : Nat) (f : StepRun → StepRun) : IssueFrame lk tile s (s.updRun k f) := updJob_frame ..

theorem raise_frame (jid code stamp : Nat) (w : Where) : IssueFrame lk tile s (s.raise jid code stamp w) := by
  unfold State.raise; split
  · exact .rfl
  · dsimp only; split <;> exact setJob_frame ..

theorem draws_frame (n : Nat) : IssueFrame lk tile s { s with draws := n } :=
  ⟨Eq.refl _, fun _ _ => Eq.refl _, Eq.refl _, fun _ => Eq.refl _, fun x hx => ⟨x, hx, Eq.refl _⟩⟩

theorem taken_frame (l : List (Nat × Nat)) : IssueFrame lk tile s { s with taken := l } :=
  ⟨Eq.refl _, fun _ _ => Eq.refl _, Eq.refl _, fun _ => Eq.refl _, fun x hx => ⟨x, hx, Eq.refl _⟩⟩

theorem claims_frame (n : Nat) (l : List (Nat × Nat)) : IssueFrame lk tile s { s with draws := n, taken := l } :=
  ⟨Eq.refl _, fun _ _ => Eq.refl _, Eq.refl _, fun _ => Eq.refl _, fun x hx => ⟨x, hx, Eq.refl _⟩⟩

/-- A trace entry changes its job's count of entries and tier 2 alone. -/
theorem trace_eq (jid level die k unit index kind : Nat) (shown : List Nat) :
    ∃ js m, s.trace jid level die k unit index kind shown = { s with jobs := js, tier2 := m } := by
  unfold State.trace; split
  · exact ⟨s.jobs, s.tier2, Eq.refl _⟩
  · split
    · split
      · exact ⟨s.jobs, s.tier2, Eq.refl _⟩
      · dsimp only
        split
        · split
          · exact ⟨_, _, Eq.refl _⟩
          · exact ⟨_, s.tier2, Eq.refl _⟩
        · exact ⟨_, s.tier2, Eq.refl _⟩
    · exact ⟨s.jobs, s.tier2, Eq.refl _⟩

/-- A job that is not replayed is not traced. -/
theorem trace_untraced (jid level die k unit index kind : Nat) (shown : List Nat) (h : ∀ j, s.job jid = some j → j.replayRun = none) :
    s.trace jid level die k unit index kind shown = s := by
  unfold State.trace
  cases hj : s.job jid with
  | none => exact Eq.refl _
  | some j => simp [h j hj]

/-- A fold of framed steps is framed. -/
theorem foldl_frame {β : Type} (f : State → β → State) (h : ∀ a b, IssueFrame lk tile a (f a b)) (l : List β) (s : State) :
    IssueFrame lk tile s (l.foldl f s) := by
  induction l generalizing s with
  | nil => exact .rfl
  | cons b l ih => exact .trans (h s b) (ih _)

/-- The trace entries of an issue change jobs and tier 2 alone. -/
theorem traceIssue_eq (unit : Nat) (r : IssueRec) : ∃ js m, traceIssue s tile unit r = { s with jobs := js, tier2 := m } := by
  have fold : ∀ (g : Nat → Nat × Nat × Nat × Nat × Nat × Nat × Nat × List Nat) (l : List Nat) (x : State),
      ∃ js m, l.foldl (fun (st : State) e => st.trace (g e).1 (g e).2.1 (g e).2.2.1 (g e).2.2.2.1 (g e).2.2.2.2.1 (g e).2.2.2.2.2.1
        (g e).2.2.2.2.2.2.1 (g e).2.2.2.2.2.2.2) x = { x with jobs := js, tier2 := m } := by
    intro g l
    induction l with
    | nil => intro x; exact ⟨x.jobs, x.tier2, Eq.refl _⟩
    | cons e l ih =>
      intro x
      obtain ⟨js, m, h⟩ := trace_eq (s := x) (g e).1 (g e).2.1 (g e).2.2.1 (g e).2.2.2.1 (g e).2.2.2.2.1 (g e).2.2.2.2.2.1
        (g e).2.2.2.2.2.2.1 (g e).2.2.2.2.2.2.2
      simp only [List.foldl_cons, h]
      obtain ⟨js', m', h'⟩ := ih { x with jobs := js, tier2 := m }
      exact ⟨js', m', h'⟩
  unfold traceIssue
  dsimp only
  obtain ⟨js, m, h⟩ := fold (fun e => ((s.tile tile).job.getD 0, 1, dieOf tile, tile, unit, e, 0, [((s.tile tile).entry e).code])) (recChecks r) s
  rw [h]
  obtain ⟨js', m', h'⟩ := trace_eq (s := { s with jobs := js, tier2 := m }) ((s.tile tile).job.getD 0) 2 (dieOf tile) tile unit r.index 1
    [((s.tile tile).entry r.entryA).code, ((s.tile tile).entry r.entryB).code, ((s.tile tile).entry r.setEntry).code]
  exact ⟨js', m', h'⟩

/-- The issue of a job that is not replayed writes no trace. -/
theorem traceIssue_untraced (unit : Nat) (r : IssueRec) (h : ∀ j, s.job ((s.tile tile).job.getD 0) = some j → j.replayRun = none) :
    traceIssue s tile unit r = s := by
  have fold : ∀ l : List Nat, l.foldl (fun (st : State) e =>
      st.trace ((s.tile tile).job.getD 0) 1 (dieOf tile) tile unit e 0 [((s.tile tile).entry e).code]) s = s := by
    intro l
    induction l with
    | nil => exact Eq.refl _
    | cons e l ih => rw [List.foldl_cons, trace_untraced _ _ _ _ _ _ _ _ h, ih]
  unfold traceIssue
  dsimp only
  rw [fold, trace_untraced _ _ _ _ _ _ _ _ h]

theorem checkEntries_frame (jid unit : Nat) (r : IssueRec) : IssueFrame lk tile s (checkEntries s jid tile unit r) := by
  unfold checkEntries; split
  · exact .rfl
  · exact foldl_frame _ (fun _ _ => raise_frame ..) _ _

theorem accessInOrder_frame (o : Op) (p : Part) (pid res grant : Nat) (t2 : Bool) (arrival n : Nat) :
    IssueFrame lk tile s (s.accessInOrder o p pid res grant t2 arrival n) := by
  unfold State.accessInOrder; dsimp only; split
  · exact .trans (access_frame ..) (emit_frame ..)
  · exact emit_frame ..

/-! ### The work of each class -/

theorem startAccess_frame (o : Op) (h : o.tile = tile) (cls off len tier code e unit : Nat) (fp : Bool) (mk : MemJob → Act) :
    IssueFrame lk tile s (startAccess s o cls off len tier code e unit fp mk) := by
  subst h; unfold startAccess; split
  · exact .rfl
  · dsimp only; split
    · refine .trans ?_ (emit_frame ..)
      exact updTile_frame _ (fun _ => Eq.refl _)
    · split
      · split
        · exact .trans (setOpCtl_frame ..) (accessInOrder_frame ..)
        · exact .trans (setOpCtl_frame ..) (access_frame ..)
      · refine .trans ?_ (emit_frame ..)
        exact updTile_frame _ (fun _ => Eq.refl _)

theorem queueFlits_frame (p : Part) (pid link ready id : Nat) (fs : List Flit) :
    IssueFrame false tile s (queueFlits s p pid link ready id fs).1 := by
  unfold queueFlits; dsimp only; split
  · exact .rfl
  · split
    · exact ⟨Eq.refl _, fun _ _ => Eq.refl _, Eq.refl _, fun h => by simp at h, fun x hx => ⟨x, hx, Eq.refl _⟩⟩
    · exact .rfl

theorem issueWeights_frame (o : Op) (a : Arr) (cls : Nat) (d : Desc) : IssueFrame lk tile s (issueWeights s o a cls d) := by
  unfold issueWeights; split
  · exact .rfl
  · exact .trans (emit_frame ..) (emit_frame ..)

theorem issueActivation_frame (o : Op) (a : Arr) (cls : Nat) (d : Desc) : IssueFrame lk tile s (issueActivation s o a cls d) := by
  unfold issueActivation; dsimp only; split
  · exact .trans (emit_frame ..) (emit_frame ..)
  · exact emit_frame ..

theorem setArr_still (t : Tile) (a : Arr) (x : ArrayState) : (t.setArr a x).still = t.still := by cases a <;> exact Eq.refl _

theorem clearRow_frame (a : Arr) (row : Nat) (c : Bool) : IssueFrame lk tile s (clearRow s tile a row c) := by
  unfold clearRow; split
  · exact updTile_frame _ (fun _ => setArr_still _ _ _)
  · exact .rfl

theorem issueDrain5_frame (o : Op) (h : o.tile = tile) (a : Arr) (d : Desc) : IssueFrame lk tile s (issueDrain5 s o a d) := by
  subst h; unfold issueDrain5; exact .trans (.trans (clearRow_frame ..) (addSum_frame _)) (emit_frame ..)

theorem issueDrain6_frame (o : Op) (h : o.tile = tile) (a : Arr) (d : Desc) : IssueFrame lk tile s (issueDrain6 s o a d) := by
  subst h; unfold issueDrain6; exact .trans (clearRow_frame ..) (emit_frame ..)

theorem issueSkim_frame (o : Op) (d : Desc) : IssueFrame lk tile s (issueSkim s o d) := by
  unfold issueSkim; dsimp only; split
  · exact emit_frame ..
  · split
    · exact .rfl
    · split
      · exact emit_frame ..
      · by_cases g : slotsGranted (s.part (‹Job›).part).grant1 false (o.issued + 24)
          (slotCount false (segBytes ((fmtOf (fld d 17 14)).getD Fmt.s8)
            + (if hasTrailer ((fmtOf (fld d 17 14)).getD Fmt.s8) then 32 else 0))) = true
        · rw [if_pos g]; exact .trans (setOpCtl_frame ..) (accessInOrder_frame ..)
        · rw [if_neg g]; exact emit_frame ..

theorem issueVector_frame (o : Op) (h : o.tile = tile) (cls : Nat) (d : Desc) : IssueFrame lk tile s (issueVector s o cls d) := by
  subst h; unfold issueVector; dsimp only; split
  · exact .trans (addSum_frame _) (emit_frame ..)
  · split <;> exact .trans (addSum_frame _) (emit_frame ..)

theorem issueFused_frame (o : Op) (h : o.tile = tile) (d : Desc) : IssueFrame lk tile s (issueFused s o d) := by
  subst h; unfold issueFused; dsimp only
  refine .trans ?_ (foldl_frame _ (fun a b => ?_) _ _)
  · refine .trans ?_ (draws_frame _)
    exact setTile_frame _ (Eq.refl _)
  · repeat' split
    all_goals first
      | exact .rfl
      | exact emit_frame ..

theorem issueScratch_frame (o : Op) (d : Desc) : IssueFrame lk tile s (issueScratch s o d) := by
  unfold issueScratch; dsimp only; split <;> exact emit_frame ..

theorem issueTurn_frame (o : Op) (h : o.tile = tile) (d : Desc) : IssueFrame lk tile s (issueTurn s o d) := by
  subst h; unfold issueTurn; exact .trans (addSum_frame _) (emit_frame ..)

theorem emitStatus_frame (o : Op) (done at_ : Nat) (c : ConvOut) : IssueFrame lk tile s (emitStatus s o done at_ c) := by
  unfold emitStatus; dsimp only; split
  · exact .trans (emit_frame ..) (emit_frame ..)
  · exact emit_frame ..

theorem ite_frame {p : Prop} [Decidable p] {u : State} (h : IssueFrame lk tile s u) :
    IssueFrame lk tile s (if p then u else s) := by
  split
  · exact h
  · exact .rfl

theorem issueMemory_frame (o : Op) (h : o.tile = tile) (cls : Nat) (d : Desc) : IssueFrame lk tile s (issueMemory s o cls d) := by
  unfold issueMemory; dsimp only; split
  · exact startAccess_frame _ h ..
  · exact .trans (ite_frame (emitStatus_frame ..)) (startAccess_frame _ h ..)

theorem issuePut_frame (o : Op) (h : o.tile = tile) (d : Desc) : IssueFrame lk tile s (issuePut s o d) := by
  unfold issuePut; dsimp only
  exact .trans (ite_frame (emitStatus_frame ..)) (startAccess_frame _ h ..)

theorem issueTake_frame (o : Op) (h : o.tile = tile) (d : Desc) : IssueFrame lk tile s (issueTake s o d) := by
  unfold issueTake; exact startAccess_frame _ h ..

theorem issueDieSend_frame (o : Op) (h : o.tile = tile) (cls : Nat) (d : Desc) : IssueFrame lk tile s (issueDieSend s o cls d) := by
  subst h; unfold issueDieSend; split
  · exact .rfl
  · split
    · exact .rfl
    · dsimp only
      repeat' split
      all_goals first
        | exact missGrant_frame
        | exact .trans (claims_frame ..) (foldl_frame _ (fun _ _ => emit_frame ..) _ _)
        | exact .trans (.trans (claims_frame ..) (foldl_frame _ (fun _ _ => emit_frame ..) _ _)) (access_frame ..)
        | exact .trans (.trans (claims_frame ..) (foldl_frame _ (fun _ _ => emit_frame ..) _ _)) (emit_frame ..)

theorem issueReceive_frame (o : Op) (lath : Bool) (cls : Nat) (d : Desc) (e : Option Nat) :
    IssueFrame lk tile s (issueReceive s o lath cls d e) := by
  unfold issueReceive; split
  · exact .rfl
  · split
    · exact .rfl
    · exact .trans (updRun_frame ..) (.trans (emit_frame ..) (emit_frame ..))

theorem issueLathSend_frame (o : Op) (h : o.tile = tile) (d : Desc) : IssueFrame false tile s (issueLathSend s o d) := by
  subst h; unfold issueLathSend; split
  · exact .rfl
  · split
    · exact .rfl
    · dsimp only
      repeat' split
      all_goals first
        | exact .trans (draws_frame _) (queueFlits_frame ..)
        | exact missGrant_frame

theorem enqueueNext_frame (o : Op) (n : Nat) : IssueFrame lk tile s { s.enqueue o with opSeq := n } :=
  ⟨Eq.refl _, fun _ _ => Eq.refl _, Eq.refl _, fun _ => Eq.refl _, fun x h => ⟨x, (State.mem_enqueue s o x).2 (.inr h), Eq.refl _⟩⟩

theorem emitPacket_frame (o : Op) (due : Nat) (p : Packet) (die : Nat) : IssueFrame lk tile s (s.emitPacket o due p die) := by
  unfold State.emitPacket
  exact enqueueNext_frame ..

theorem placedAccess_frame (x : Option (Nat × Nat)) (o : Op) (j : Job) (arrival : Nat) (act : Act) :
    IssueFrame lk tile s (s.placedAccess x o j arrival act) := by
  unfold State.placedAccess; split
  · exact access_frame ..
  · exact emit_frame ..

theorem residAccess_frame (o : Op) (j : Job) (off arrival : Nat) (act : Act) :
    IssueFrame lk tile s (s.residAccess o j off arrival act) := placedAccess_frame ..

theorem carryPacket_frame (o : Op) (h : o.tile = tile) (cls : Nat) (e : SendEntry) (p : Packet) (off due ready : Nat) :
    IssueFrame false tile s (carryPacket s o cls e p off due ready) := by
  subst h; unfold carryPacket; split
  · exact .rfl
  · dsimp only; split
    · split
      · exact queueFlits_frame ..
      · exact missGrant_frame
    · exact emitPacket_frame ..

theorem sendPacket_frame (o : Op) (h : o.tile = tile) (cls : Nat) (e : SendEntry) (p : Packet) (off due ready : Nat) :
    IssueFrame false tile s (sendPacket s o cls e p off due ready) := by
  unfold sendPacket; split
  · exact .trans (draws_frame _) (carryPacket_frame _ h ..)
  · exact carryPacket_frame _ h ..

theorem issueScreed_frame (o : Op) (h : o.tile = tile) (cls : Nat) (d : Desc) : IssueFrame false tile s (issueScreed s o cls d).1 := by
  unfold issueScreed; split
  · exact .rfl
  · split
    · exact .rfl
    · dsimp only; split
      · exact sendPacket_frame _ h ..
      · split
        · exact .trans (updRun_frame ..) (sendPacket_frame _ h ..)
        · exact residAccess_frame ..

theorem noteSeal_frame (jid obj : Nat) : IssueFrame lk tile s (noteSeal s jid obj) := by
  unfold noteSeal; split
  · split
    · exact updRun_frame ..
    · exact .rfl
  · exact .rfl

theorem sealDraw_frame (n jid obj : Nat) : IssueFrame lk tile s (noteSeal { s with draws := n } jid obj) :=
  .trans (draws_frame _) (noteSeal_frame ..)

theorem issueArrive_frame (o : Op) (h : o.tile = tile) (cls : Nat) (d : Desc) :
    IssueFrame (decide (cls < 0x60)) tile s (issueArrive s o cls d) := by
  subst h; unfold issueArrive; dsimp only; split
  · rename_i hc; subst hc
    rw [show decide ((0x82 : Nat) < 0x60) = false from Eq.refl _]
    refine .trans (sealDraw_frame (s.draws + b2n o.spoiled) o.job (fld d 47 34)) ?_
    repeat' split
    all_goals first
      | exact .rfl
      | exact queueFlits_frame ..
      | exact missGrant_frame
  · exact .trans (sealDraw_frame ..) (emit_frame ..)

/-- The frame of an issue's class's work (R71): below class 0x60 the links stay as they were. -/
theorem classWork_frame (o : Op) (h : o.tile = tile) (a : Arr) (cls : Nat) (r : IssueRec) :
    IssueFrame (decide (cls < 0x60)) tile s (classWork s o a cls r) := by
  unfold classWork; dsimp only
  split
  case h_1 => exact .trans (completeAt_frame ..) (issueWeights_frame ..)
  case h_2 => exact .trans (completeAt_frame ..) (issueWeights_frame ..)
  case h_3 => exact .trans (completeAt_frame ..) (issueActivation_frame ..)
  case h_4 => exact .trans (completeAt_frame ..) (issueActivation_frame ..)
  case h_5 => exact .trans (completeAt_frame ..) (issueDrain5_frame _ h ..)
  case h_6 => exact .trans (completeAt_frame ..) (issueDrain6_frame _ h ..)
  case h_7 => exact .trans (completeAt_frame ..) (issueSkim_frame ..)
  case h_8 => exact .trans (completeAt_frame ..) (issueVector_frame _ h ..)
  case h_9 => exact .trans (completeAt_frame ..) (issueVector_frame _ h ..)
  case h_10 => exact .trans (completeAt_frame ..) (issueVector_frame _ h ..)
  case h_11 => exact .trans (completeAt_frame ..) (issueVector_frame _ h ..)
  case h_12 => exact .trans (completeAt_frame ..) (issueFused_frame _ h ..)
  case h_13 => exact .trans (completeAt_frame ..) (issueScratch_frame ..)
  case h_14 => exact .trans (completeAt_frame ..) (issueTurn_frame _ h ..)
  case h_15 => exact .trans (completeAt_frame ..) (issueMemory_frame _ h ..)
  case h_16 => exact .trans (completeAt_frame ..) (issueMemory_frame _ h ..)
  case h_17 => exact .trans (completeAt_frame ..) (issueMemory_frame _ h ..)
  case h_18 => exact .trans (completeAt_frame ..) (issueMemory_frame _ h ..)
  case h_19 => exact .trans (completeAt_frame ..) (issueMemory_frame _ h ..)
  case h_20 =>
    split
    · exact .trans (completeAt_frame ..) (issuePut_frame _ h ..)
    · exact .trans (completeAt_frame ..) (issueTake_frame _ h ..)
  case h_21 =>
    split
    · exact .rfl
    · split
      · exact .trans (completeAt_frame ..) (issueDieSend_frame _ h ..)
      · exact issueReceive_frame ..
  case h_22 =>
    split
    · exact .rfl
    · split
      · exact .trans (completeAt_frame ..) (issueDieSend_frame _ h ..)
      · exact issueReceive_frame ..
  case h_23 =>
    split
    · exact .rfl
    · split
      · exact .trans (completeAt_frame ..) (issueLathSend_frame _ h ..)
      · exact issueReceive_frame ..
  case h_24 => exact .trans (issueScreed_frame _ h ..) (completeAt_frame ..)
  case h_25 => exact .trans (issueScreed_frame _ h ..) (completeAt_frame ..)
  case h_26 => exact .trans (issueScreed_frame _ h ..) (completeAt_frame ..)
  case h_27 => exact .trans (completeAt_frame ..) (issueArrive_frame _ h ..)
  case h_28 => exact .trans (completeAt_frame ..) (issueArrive_frame _ h ..)
  case h_29 =>
    split
    · exact .rfl
    · exact .trans (completeAt_frame ..) (issueArrive_frame _ h ..)

end Sys2Proof.Machine
end

