-- ==== Sys2Proof/Tests/Slice0.lean ====
section
/-!
SUPPORT. Sys2Proof/Tests/Slice0.lean: tests with values taken from the spec or worked by hand, an ill-formed term for each check
of WellFormed, and, for each statement, states and operands that meet its hypotheses clause by clause (`wit_…`), each with `u` the
state 0 cycles after the command before.
-/
open Sys2Proof Sys2Proof.Machine
namespace Sys2Proof.Tests
set_option Elab.async false

/-- A module that runs, with nothing on it. -/
def idle : State := { start := { stage := .running } }
/-- The same at a cycle. -/
def idleAt (n : Nat) : State := { idle with now := n }
/-- A module in a start phase since cycle 0, its main path closed. -/
def starting (n : Nat) : State := { start := { stage := .phase n }, power := { path := true } }
/-- The clock moved by nothing. -/
def now_ (s : State) : State := s.after 0
/-- The same, nothing of its cycle having fallen due. -/
def upon_ (s : State) : State := s.upon 0

/-! ### Ill-formed terms -/

/-- A well-formed packet, spoiled field by field below. -/
def call0 : Call := { win := 0, partition := 0, params := List.replicate 48 0 }
/-- A well-formed issue record. -/
def rec0 : IssueRec :=
  { index := 0, checkA := false, checkB := false, setValid := false, releaseA := false, releaseB := false,
    entryA := 0, entryB := 0, setEntry := 0, desc := 0 }

theorem test_wf_call : (Instr.jobPause 0 call0).wf = true := by decide
theorem test_ill_window : (Instr.jobPause 0 { call0 with win := 13 }).wf = false := by decide
theorem test_ill_partition : (Instr.jobPause 0 { call0 with partition := 256 }).wf = false := by decide
theorem test_ill_call_flags : (Instr.jobPause 0 { call0 with flags := 256 }).wf = false := by decide
theorem test_ill_call_tag : (Instr.jobPause 0 { call0 with tag := 2 ^ 32 }).wf = false := by decide
theorem test_ill_call_length : (Instr.jobPause 0 { call0 with length := 65536 }).wf = false := by decide
theorem test_ill_call_reserved : (Instr.jobPause 0 { call0 with reserved := 65536 }).wf = false := by decide
theorem test_ill_params : (Instr.jobPause 0 { call0 with params := [] }).wf = false := by decide
theorem test_ill_flit_type : (Instr.idleFlit 0 0 { type := 16 }).wf = false := by decide
theorem test_ill_flit_seq : (Instr.idleFlit 0 0 { seq := 4096 }).wf = false := by decide
theorem test_ill_flit_ack : (Instr.idleFlit 0 0 { ack := 4096 }).wf = false := by decide
theorem test_ill_flit_nak : (Instr.idleFlit 0 0 { nak := 4096 }).wf = false := by decide
theorem test_ill_flit_job : (Instr.idleFlit 0 0 { job := 4096 }).wf = false := by decide
theorem test_ill_flit_dest : (Instr.idleFlit 0 0 { dest := 2 ^ 17 }).wf = false := by decide
theorem test_ill_flit_word : (Instr.idleFlit 0 0 { word := 2 ^ 23 }).wf = false := by decide
theorem test_ill_payload : (Instr.idleFlit 0 0 { payload := List.replicate 241 0 }).wf = false := by decide +kernel
theorem test_ill_link : (Instr.idleFlit 0 64 {}).wf = false := by decide
theorem test_ill_tile : (Instr.fadd 0 60 rec0).wf = false := by decide
theorem test_ill_repeat_tile : (Instr.repeatRec 0 60 0 []).wf = false := by decide
theorem test_ill_entry_a : (Instr.fadd 0 0 { rec0 with entryA := 256 }).wf = false := by decide
theorem test_ill_entry_b : (Instr.fadd 0 0 { rec0 with entryB := 256 }).wf = false := by decide
theorem test_ill_set_entry : (Instr.fadd 0 0 { rec0 with setEntry := 256 }).wf = false := by decide
theorem test_ill_job : (Instr.stepStart 0 4096 []).wf = false := by decide
theorem test_ill_phase_dies : (Instr.startPhaseComplete 0 { dies := 32 }).wf = false := by decide
theorem test_ill_die : (Instr.dieLoss 0 5 0).wf = false := by decide
theorem test_ill_switch_die : (Instr.contextSwitchPhase 0 0 5).wf = false := by decide
theorem test_ill_entry : (Instr.parkLifetimeEnd 0 16384).wf = false := by decide
theorem test_ill_set : (Instr.expertWeightsInPlace 0 0 256 0).wf = false := by decide
theorem test_ill_version : (Instr.expertWeightsInPlace 0 0 0 65536).wf = false := by decide
theorem test_ill_port : (Instr.tlsHandshake 0 2 (List.replicate 64 0)).wf = false := by decide
theorem test_ill_port_key : (Instr.tlsHandshake 0 0 []).wf = false := by decide +kernel
theorem test_ill_head : (Instr.managementRead 0 0 []).wf = false := by decide
theorem test_ill_resend : (Instr.resendTimeout 0 0 4096).wf = false := by decide
theorem test_ill_lanes : (Instr.linkSignalDetect 0 0 16).wf = false := by decide
theorem test_ill_delay : (Instr.trainingComplete 0 0 { delay := 65536, frame := 0, state := 0, hop := 0, rung := 0 }).wf = false := by decide
theorem test_ill_plumb : (Instr.trainingComplete 0 0 { delay := 0, frame := 0, state := 6, hop := 0, rung := 0 }).wf = false := by decide
theorem test_ill_hop : (Instr.trainingComplete 0 0 { delay := 0, frame := 0, state := 0, hop := 16, rung := 0 }).wf = false := by decide
theorem test_ill_train_frame : (Instr.trainingComplete 0 0 { delay := 0, frame := 2 ^ 48, state := 0, hop := 0, rung := 0 }).wf = false := by decide
theorem test_ill_rung : (Instr.trainingComplete 0 0 { delay := 0, frame := 0, state := 0, hop := 0, rung := 4 }).wf = false := by decide
theorem test_ill_cage : (Instr.plugPresent 0 16 0).wf = false := by decide
theorem test_ill_controller : (Instr.memoryTemperatureChange 0 20 true).wf = false := by decide

/-! ### Values -/

/-- Check value of CRC-32C over the nine digits (the polynomial of R405). -/
theorem test_crc32c : crc32c [0x31, 0x32, 0x33, 0x34, 0x35, 0x36, 0x37, 0x38, 0x39] = 0xE3069283 := by decide +kernel
/-- The digest of "abc" (FIPS 180-4). -/
theorem test_sha256 : (sha256 [0x61, 0x62, 0x63]).take 8 = [0xBA, 0x78, 0x16, 0xBF, 0x8F, 0x01, 0xCF, 0xEA] := by
  decide +kernel
/-- An AES-256 block (FIPS 197, C.3). -/
theorem test_aes : aesEncrypt ((List.range 32).map (fun i => BitVec.ofNat 8 i)) ((List.range 16).map (fun i => BitVec.ofNat 8 (17 * i)))
    = beBytes 16 0x8ea2b7ca516745bfeafc49904b496089 := by decide +kernel
/-- The word of frame 5, its check worked by hand from R27; the same word with another check is not valid. -/
theorem test_frame_word : frameWordOk 0xB40000000000051B = true ∧ frameWordOk 0xB40000000000051A = false := by decide +kernel
/-- The abandon boundary of chapter 3's example: two frames on for cycle 57,990, the next for cycle 1,000. -/
theorem test_boundary : boundaryOf (0x31000 * 65536 + 57990) 12288 = 0x31002 * 65536
    ∧ boundaryOf (0x31000 * 65536 + 1000) 12288 = 0x31001 * 65536 := by decide
/-- Block 0 of chapter 4's accumulate. -/
theorem test_block_term : columnTerm true [12, -7, 100, 3] 96 1 { w := [-5, 40, 2, -128], scale := 200 } = -10060800 := by decide
/-- Block 1 of it. -/
theorem test_block_term1 : columnTerm true [-128, 50] 130 1 { w := [-128, 127], scale := 64 } = 189146880 := by decide
/-- Its drain: 11,192,880 × 2^-25 is exact, and so is the FP32 word of it. -/
theorem test_drain : (drainFp32 179086080 (-29)).bits = 0x3EAACA30 := by decide +kernel
/-- An accumulator saturates at its format and says so (R91); a started slot holds the term. -/
theorem test_accumulate : accumulate 32 false 2147483647 1 = (2147483647, true) ∧ accumulate 32 true 5 1 = (1, false) := by decide
/-- The fine scale of chapter 4's block with an infinity: 1.5, -0.4, +infinity, 0.03, at e = -3. -/
theorem test_fine_scale : fineScale (-3) 127 [0x3FC00000, 0xBECCCCCD, 0x7F800000, 0x3CF5C28F] = 13 := by decide +kernel
/-- Its mantissas. -/
theorem test_mantissas : [0x3FC00000, 0xBECCCCCD, 0x7F800000, 0x3CF5C28F].map (fun x => bsMantissa (-3) 127 13 x)
    = [(118, false), (-32, false), (0, false), (2, false)] := by decide +kernel
/-- A subnormal times an infinity is an invalid result with INPUT_FLUSH (chapter 4's long reduction). -/
theorem test_zero_times_infinity : (ffma 0x0009CD00 0x7F800000 0x3F800000).bits = 0x7FC00000
    ∧ (ffma 0x0009CD00 0x7F800000 0x3F800000).fl.invalid = true ∧ (ffma 0x0009CD00 0x7F800000 0x3F800000).fl.inputFlush = true := by
  decide +kernel
/-- The base point is on the curve and has the curve's order. -/
theorem test_p256 : onCurve p256G = true ∧ pointMul p256N p256G = none := by decide +kernel
/-- The state after a completed start (log 1): the module runs, no command waits, Plumb is unlocked. -/
theorem test_reset : State.reset.start.stage = .running ∧ State.reset.pending = [] ∧ State.reset.plumb.state = .unlocked := by decide

/-! ### Witnesses: feed, coolant, controls, start -/

theorem wit_StepRunsFront : ({ idle with pending := [.feedRemoved 3] } : State).pending = [.feedRemoved 3] ∧ idle.pending = [] := by
  decide +kernel
theorem wit_FeedApplied : (now_ {}).start.stage = .off ∧ (now_ {}).power.latched = false ∧
    (now_ { power := { latched := true } }).start.stage = .off ∧ (now_ { power := { latched := true } }).power.latched = true ∧
    9999 < 10000 := by decide +kernel
/-- Three warm starts that failed, and a third one after a start cut off. -/
theorem wit_ThreeFailed : ThreeFailed { log := [{ cold := true, ends := [], outcome := 1 }] ++ List.replicate 3 { cold := false, ends := [], outcome := 2 } } ∧
    ThreeFailed { failedWarm := 3, log := [{ cold := false, ends := [], outcome := 5 }, { cold := false, ends := [], outcome := 2 }] } :=
  ⟨.inl ⟨[_], _, _, _, rfl, by decide⟩, .inr ⟨rfl, [_], _, rfl, rfl, rfl⟩⟩
/-- The module with the feed out of its range since cycle 0, at some cycle. -/
def feed (mv n : Nat) : State :=
  { idle with now := n, power := { millivolts := mv, overSince := since 0 none (decide (60000 < mv)), underSince := since 0 none (decide (mv < 44000)) } }
theorem wit_TurnOffs : (∀ m, m ∈ [60001, 65000, 43999, 9999] → (now_ (feed m 9)).start.stage ≠ .off) ∧ 65000 < 65001 ∧
    (now_ (feed 60001 2500000)).power.overSince = some 0 ∧ (now_ (feed 60001 9)).power.millivolts ≤ 65000 ∧
    ((now_ (feed 60001 9)).upto 2500000).start.stage ≠ .off ∧ (now_ (feed 43999 9)).power.underSince = some 0 ∧
    ((now_ (feed 43999 9)).upto 1250001).start.stage ≠ .off ∧ ((now_ (feed 9999 9)).upto 1250001).power.millivolts < 10000 ∧
    65000 < (now_ (feed 65001 9)).power.millivolts ∧ (now_ {}).start.stage = .off ∧
    (now_ {}).power.latched = false ∧ (now_ { start := { stage := .retry } }).start.stage = .retry := by decide +kernel
/-- A module that runs with its button held since a cycle. -/
def held (p : Int) (n : Nat) : State := { now := n, start := { stage := .running, pressedAt := some p } }
theorem wit_OperatorControls_latch : ∀ s, s ∈ [idle, starting 0, { start := { stage := .retry } }] → (now_ s).start.stage ≠ .off ∧
    (now_ s).start.stage ≠ .bootStop ∧ (now_ s).quiesce = .none := by decide +kernel
theorem wit_OperatorControls_coolant : ∃ u v t0, u = now_ { idleAt (10 * second) with power := { hotSince := some 0 } } ∧
    u.power.hotSince = some t0 ∧ u.now ≤ t0 + 10 * second ∧ u.start.stage = .running ∧
    v = (u.settle (t0 + 10 * second)).advance (t0 + 10 * second) ∧ v.quiesce = .none :=
  ⟨_, _, 0, rfl, by decide +kernel, by decide +kernel, by decide +kernel, rfl, by decide +kernel⟩
theorem wit_OperatorControls_press : (now_ idle).quiesce = .none ∧ (now_ { idle with quiesce := .done }).quiesce ≠ .none := by
  decide +kernel
theorem wit_OperatorControls_release : (now_ (held 0 (second - 1))).start.pressedAt = some 0 ∧ (now_ (held 0 (second - 1))).now < 0 + second ∧
    (now_ (held 0 (second - 1))).start.stage ≠ .off := by decide +kernel
theorem wit_OperatorControls_hold : ∃ u v p, u = now_ (held 0 (3 * second)) ∧ u.start.pressedAt = some p ∧
    u.start.heldFromFeed = false ∧ u.start.stage = .running ∧ u.quiesce = .none ∧ u.now ≤ p + 3 * second ∧
    v = u.upto (p + 3 * second).toNat ∧ v.quiesce = .none :=
  ⟨_, _, 0, rfl, by decide +kernel, by decide +kernel, by decide +kernel, by decide +kernel, by decide +kernel, rfl, by decide +kernel⟩
/-- A press 5 cycles before the feed: released a second after it, it is no short press (R455). -/
theorem test_press_before_feed : ((now_ (held (-5) (second - 5))).start.pressedAt.any (fun p => decide (((second - 5 : Nat) : Int) < p + second))) = false := by
  decide +kernel
/-- A module in P1 with its button held since before the feed. -/
def coldAsked : State := { start := { stage := .phase 1, pressedAt := some 0, heldFromFeed := true } }
theorem wit_OperatorControls_cold : ∃ u v t0, u = now_ coldAsked ∧ t0 = u.start.p0End + 3 * second ∧ u.start.pressedAt.isSome = true ∧
    u.start.heldFromFeed = true ∧ u.start.stage ≠ .phase 0 ∧ u.now ≤ t0 ∧ v = (u.settle t0).advance t0 ∧ v.start.stage.isPhase = true :=
  ⟨_, _, _, rfl, rfl, by decide +kernel, by decide +kernel, by decide +kernel, by decide +kernel, rfl, by decide +kernel⟩
theorem wit_OperatorControls_access : ∃ u v t0, u = now_ coldAsked ∧ t0 = u.start.p0End + 10 * second ∧ u.start.pressedAt.isSome = true ∧
    u.start.heldFromFeed = true ∧ u.start.stage ≠ .phase 0 ∧ u.now ≤ t0 ∧ v = (u.settle t0).advance t0 :=
  ⟨_, _, _, rfl, rfl, by decide +kernel, by decide +kernel, by decide +kernel, by decide +kernel, rfl⟩
theorem wit_PowerSamples : (now_ idle).start.stage = .running ∧ (now_ idle).power.tripped = false ∧
    ∀ a, a ∈ (now_ idle).acts → a.2 ≠ .trip := by decide +kernel
theorem wit_StartSequence_ends : ∃ r : PhaseReport, r.hubOk = false ∧ (now_ (starting 0)).start.stage = .phase 0 ∧
    (now_ (starting 0)).now ≤ (now_ (starting 0)).start.phaseStart + phaseBound 0 ∧ (now_ (starting 0)).power.path = true ∧
    (now_ { start := { stage := .phase 0 }, power := { enable := true } }).power.path = false ∧ 90 ≤ ({ bulk := 90 } : PhaseReport).bulk ∧
    ({ bulk := 89 } : PhaseReport).bulk < 90 ∧
    (∀ n, n ∈ [2, 4] → (now_ (starting n)).start.stage = .phase n ∧
      (now_ (starting n)).now ≤ (now_ (starting n)).start.phaseStart + phaseBound n) := ⟨{ hubOk := false }, by decide +kernel⟩
/-- P8 at its bound, with a link that lost its signal in P7. -/
def lastPhase : State :=
  { now := 2 * second, links := [(3, { since := second })], start := { stage := .phase 8, ends := [(7, 2 * second - phaseBound 8)] } }
theorem wit_StartSequence_done : (now_ lastPhase).start.stage = .phase 8 ∧
    (now_ lastPhase).now ≤ (now_ lastPhase).start.phaseStart + phaseBound 8 ∧
    ∀ e, e ∈ (now_ lastPhase).links → e.2.since + second ≤ (now_ lastPhase).now := by decide +kernel
theorem wit_StartSequence_timeouts : (∀ n, n ∈ [0, 2, 3, 5] → (now_ (starting n)).start.stage = .phase n ∧
      (now_ (starting n)).now ≤ (now_ (starting n)).start.phaseStart + phaseBound n) ∧
    ((now_ (starting 3)).settle (phaseBound 3)).lostDies = [] ∧
    ((now_ { starting 5 with lostDies := [1] }).settle (phaseBound 5)).lostDies = [1] ∧ 1 ≠ 4 := by decide +kernel
theorem wit_StartSequence_retry : (now_ (starting 2)).start.stage = .phase 2 ∧
    (now_ { start := { stage := .retry } }).start.stage = .retry := by decide +kernel

/-! ### Witnesses: Plumb time -/

/-- The frame word of frame 5. -/
def word5 : BitVec 64 := 0xB40000000000051B
/-- A module at frame 5 whose Plumb plane acquires from the connector. -/
def acquiring : State :=
  { idleAt 327680 with plumb := { state := .acquiring, cand := 64, src := { lastAt := some 4, frame := 4 } } }
/-- The same, locked to it. -/
def locked (source : Nat) : State := { idleAt 327680 with plumb := { state := .locked, source := source } }
theorem wit_FrameWords : frameWordOk 0xB400000000000500 = false ∧ frameWordOk word5 = true ∧ (now_ idle).timed = true ∧
    (now_ idle).plumb.state = .unlocked ∧ (now_ acquiring).plumb.state = .acquiring ∧ (now_ acquiring).plumb.cand = 64 ∧
    (now_ acquiring).plumb.src.lastAt = some (frameOf ((now_ acquiring).now + 32768) - 1) ∧
    fld word5 55 8 = (now_ acquiring).plumb.src.frame + 1 ∧ (now_ (locked 64)).plumb.state = .locked ∧
    (now_ (locked 64)).plumb.source = 64 ∧ fld word5 55 8 = frameOf ((now_ (locked 64)).now + 32768) := by decide +kernel
theorem wit_FrameWords_barred : ∀ s, s ∈ [idle, acquiring, locked 64] → SourcesBarred (now_ s) := by
  unfold SourcesBarred; decide +kernel
/-- The timing flit of frame 5 from a partner in some state, hop count 3 or 15, deadline 9. -/
def timing5 (code hop : Nat) : Flit :=
  { type := 4, payload := leBytes 6 5 ++ leBytes 2 (code * 16 + hop) ++ leBytes 6 9 ++ List.replicate 226 0 }
/-- A module at frame 5, locked to link 7. -/
def locked7 : State :=
  { idleAt 327680 with links := [(7, { state := .active })], plumb := { state := .locked, source := 7, src := { lastAt := some 4, frame := 4 } } }
theorem wit_TimingFlits : frameOf ((now_ locked7).now - ((now_ locked7).link 7).delay + 32768) = 5 ∧ (timing5 3 3).type = 4 ∧
    ((now_ locked7).link 7).state = .active ∧ (now_ locked7).timed = true ∧ (now_ locked7).plumb.state = .locked ∧
    (now_ locked7).plumb.source = 7 ∧ (now_ locked7).plumb.losing = false ∧ (16 : Int).natAbs ≤ 16 ∧
    (now_ locked7).plumb.src.lastAt = some (5 - 1) ∧ (timeTold (timing5 3 3) 0).frame = 5 ∧
    (timeTold (timing5 3 3) 0).state = .holdover ∧ (timeTold (timing5 3 3) 0).hop ≠ 15 ∧
    (timeTold (timing5 2 3) 0).state = .locked ∧ (timeTold (timing5 2 15) 0).hop = 15 := by decide +kernel
/-- Acquiring with some good frames. -/
def good (n : Nat) : State :=
  { idleAt 327680 with plumb := { state := .acquiring, cand := 64, wasFenced := true, src := { good := n, lastAt := some 5, frame := 77 } } }
/-- HOLDOVER in frame 5, with a source in view again. -/
def holdover : State :=
  { idleAt 327680 with
      plumb := { state := .holdover, deadline := 6, cand := 64, connector := { good := 16, lastAt := some 5, frame := 5 },
                 src := { err := -16 } } }
theorem wit_PlumbStates : (now_ (good 16)).plumb.state = .acquiring ∧ 16 ≤ (now_ (good 16)).plumb.src.good ∧
    (now_ (good 16)).plumb.src.lastAt = some (frameOf (now_ (good 16)).now) ∧ (now_ (good 15)).plumb.src.good < 16 ∧
    (now_ (locked 64)).plumb.state = .locked ∧
    (now_ { locked 64 with plumb := { state := .locked, source := 64, losing := true } }).plumb.losing = true ∧
    (now_ holdover).plumb.state = .holdover ∧ (now_ holdover).plumb.cand ≠ 127 ∧
    selectSource (now_ holdover) = some (now_ holdover).plumb.cand ∧ (now_ holdover).plumb.src.err.natAbs ≤ 16 ∧
    (now_ holdover).now < 65536 * (now_ holdover).plumb.deadline ∧ silent (now_ (locked 64)) = true ∧
    silent (now_ { locked 64 with plumb := { state := .locked, source := 64, losing := true, src := { lastAt := some 5 } } }) = false := by decide +kernel
theorem wit_SourceKept : ∃ t, (locked 64).plumb.state = .locked ∧
    step { locked 64 with pending := [.serviceButtonPress 5] } = .next t ∧ t.plumb.state = .locked :=
  ⟨_, by decide +kernel, rfl, by decide +kernel⟩

/-! ### Witnesses: the management tick, serving, snapshots, dies -/

/-- A table of `n` bytes with some numbers at some offsets. -/
def table (n : Nat) (l : List (Nat × Nat)) : List Byte := leBytes n (l.foldl (fun a e => a + e.2 * 256 ^ e.1) 0)
/-- An image of partition 0 under handle 0: its kind, its flags, the bodies it carries beside the primary, its constants by
kind, its programs by tile and its other sections. -/
def image (kind flags bodies : Nat) (consts : List (Nat × List Byte)) (tiles : List Nat) (secs : List (Nat × List Byte)) : Image :=
  { part := 0, handle := 0, header := table 256 [(6, kind), (8, flags), (0x89, bodies)], digest := List.replicate 32 0
    sections := consts.map (fun c => { type := 10, body := 0, flags := c.1, data := c.2 })
      ++ tiles.map (fun t => { type := 1, body := 0, flags := t, data := [] })
      ++ secs.map (fun c => { type := c.1, body := 0, flags := 0, data := c.2 }) }
/-- A job of that image. -/
def job0 : Job := { part := 0, handle := 0, body := 0, kind := 1 }
/-- A module that runs one job, number 9. -/
def one (i : Image) (j : Job) : State := { idle with images := [i], jobs := [(9, j)], parts := [(0, { state := .open_ })] }
/-- The plain image. -/
def plain : Image := image 1 0 0 [] [] []

/-- LOCKED to the connector, the source lost. -/
def losing : State := { idleAt 1000 with plumb := { state := .locked, source := 64, losing := true } }
theorem wit_HoldoverFence_entry : ∃ u v f, u = now_ losing ∧ u.plumb.state = .locked ∧ u.plumb.losing = true ∧ f = nextFrame u.now ∧
    v = (u.settle f).reach f ∧ v.plumb.state.runs = true :=
  ⟨_, _, _, rfl, by decide +kernel, by decide +kernel, rfl, rfl, by decide +kernel⟩
theorem wit_HoldoverFence_silent : ∃ u v f, u = now_ (locked 64) ∧ u.plumb.state = .locked ∧ u.plumb.losing = false ∧ silent u = true ∧
    f = nextFrame u.now ∧ v = (u.settle f).reach f ∧ v.plumb.state.runs = true :=
  ⟨_, _, _, rfl, by decide +kernel, by decide +kernel, by decide +kernel, rfl, rfl, by decide +kernel⟩
theorem wit_HoldoverFence : ∃ u v g, u = now_ { idleAt 1000 with plumb := { state := .holdover, deadline := 6 } } ∧ g = 65536 * u.plumb.deadline ∧
    u.plumb.state = .holdover ∧ u.now ≤ g ∧ v = (u.settle g).reach g ∧ v.switches = [] ∧ ∀ c, c ∈ v.cmds → c.opcode ≠ 0x0104 :=
  ⟨_, _, _, rfl, rfl, by decide +kernel, by decide +kernel, rfl, by decide +kernel, by decide +kernel⟩
theorem wit_ManagementTick : ((now_ (idleAt 1048576)).upto (now_ (idleAt 1048576)).nextTick).start.stage = .running ∧
    (now_ (idleAt 1048576)).nextTick = 1048576 := by decide +kernel
/-- At a tick boundary that has been worked. -/
def ticked (s : State) : State := { s with now := 1048576, tickAt := some 1048576 }
/-- Two multi-module jobs, 9 the heavier. -/
def twoJobs (run : Option StepRun) : State :=
  { ticked (one (image 1 8 0 [] [] []) { job0 with load := (8, 3), run := run }) with
      jobs := [(8, { job0 with load := (7, 3) }), (9, { job0 with load := (8, 3), run := run })], power := { highTicks := 2384 } }
theorem wit_Governor_rest : (now_ { ticked idle with power := { lowTicks := 64, resting := [3, 9] } }).atTick = true ∧
    64 ≤ (now_ { ticked idle with power := { lowTicks := 64, resting := [3, 9] } }).power.lowTicks ∧
    (now_ { ticked idle with power := { lowTicks := 64, resting := [3, 9] } }).power.resting.getLast? = some 9 := by decide +kernel
theorem wit_Governor_pause : ∀ r, r ∈ [none, some { number := 0, start := 0, frames := 40 : StepRun }] →
    (now_ (twoJobs r)).atTick = true ∧ 2384 ≤ (now_ (twoJobs r)).power.highTicks ∧
    ∃ j, (9, j) ∈ (now_ (twoJobs r)).jobs ∧ (now_ (twoJobs r)).job 9 = some j ∧ j.resident = true ∧ j.mode = .running ∧
    (now_ (twoJobs r)).multi j = true ∧ j.busyBefore (frameOf (now_ (twoJobs r)).now + 1) = r.isSome ∧
    ∀ e, e ∈ (now_ (twoJobs r)).jobs → e ≠ (9, j) → e.2.resident = true → e.2.mode = .running → (now_ (twoJobs r)).multi e.2 = true →
      heavier (9, j) e = true ∧ heavier e (9, j) = false := by
  intro r h
  simp only [List.mem_cons, List.not_mem_nil, or_false] at h
  obtain rfl | rfl := h
  all_goals exact ⟨by decide +kernel, by decide +kernel, _, .tail _ (.head _), rfl, rfl, rfl, rfl, by decide +kernel, by decide +kernel⟩
theorem wit_Governor_frames : ∃ j t0, (now_ (one plain { job0 with restUntil := some 65536 })).now ≤ t0 ∧
    ((now_ (one plain { job0 with restUntil := some 65536 })).job 9).bind (fun j => j.restUntil) = some t0 ∧
    ((now_ (one plain { job0 with restUntil := some 65536 })).upto t0).job 9 = some j ∧ j.restUntil.isSome = true ∧ j.mode = .running ∧
    j.stop = none ∧ j.pauseAsk = none ∧ j.leaving = none ∧ j.serve.isNone = true :=
  ⟨{ job0 with restUntil := some 65536 }, 65536, by decide +kernel⟩
/-- A serving job at a tick boundary, with two summary places, whose lifetime is 3 mt. -/
def serving (v : Serve) (rs : SMap Req) : State :=
  { ticked (one (image 3 0 0 [(4, table 128 [(0x30, 2), (0x34, 5), (0x38, 3), (0x64, 2)])] [] []) { job0 with kind := 3, serve := some v }) with
      requests := rs }
/-- The policy word with a pause of one, from the first pressed tick on, and a resume from the first calm one on. -/
def policy1 : Nat := 7 * 2 ^ 61 + 2 ^ 48 + 2 ^ 44 + 2 ^ 36
/-- A serve that has been near split 1 for four ticks, pressed for one and calm for one. -/
def near : Serve := { policy := policy1, nearest := 1, nearTicks := 4, pressed := 1, calm := 1 }
theorem wit_SplitAndPressure : ((now_ (serving near [])).job 9).bind (fun j => j.serve) = some near ∧
    (now_ (serving near [])).atTick = true ∧ near.nearest = 1 ∧ 4 ≤ near.nearTicks ∧ near.split ≠ 1 ∧ near.pauseDone = false ∧
    policyField near.policy 2 ≠ 0 ∧ 1 ≤ near.pressed ∧ policyField near.policy 3 ≤ near.pressed ∧ near.resumeDone = false ∧
    1 ≤ near.calm ∧ policyField near.policy 4 ≤ near.calm := by decide +kernel
/-- Two pauses and two resumes a time; entry 8 is pressed, entry 5 was paused for it. -/
def two : Serve := { policy := 7 * 2 ^ 61 + 2 * 2 ^ 48, pressed := 1, calm := 1, pressedSet := [8], pressure := [5] }
/-- Their entries. -/
def pressed8 : SMap Req := [(5, { state := .parked, job := 9 }), (7, { state := .decode, job := 9 }), (8, { state := .decode, job := 9, priority := 3 })]
theorem wit_SplitAndPressure_lists : ∃ u r q, u = now_ (serving two pressed8) ∧ (pressureVictims u 9).length < policyField two.policy 2 ∧
    (7, r) ∈ u.requests ∧ r.job = 9 ∧ r.running = true ∧ r.priority ≤ policyField two.policy 0 ∧ 7 ∉ two.pressedSet ∧
    (8 ∈ two.pressedSet ∧ r.priority < (u.req 8).priority) ∧ 7 ∈ pressureVictims u 9 ∧
    (pressureReleased u 9).length < policyField two.policy 2 ∧ (5, q) ∈ u.requests ∧ q.job = 9 ∧ q.dropped = false ∧ q.state = .parked ∧
    5 ∈ two.pressure :=
  ⟨_, { state := .decode, job := 9 }, { state := .parked, job := 9 }, rfl, by decide +kernel, by decide +kernel, rfl, rfl, by decide +kernel,
    by decide, by decide +kernel, by decide +kernel, by decide +kernel, by decide +kernel, rfl, rfl, rfl, by decide⟩
/-- A request whose lifetime ends at cycle 1,048,580. -/
def aging (q : ReqState) : Req := { state := q, job := 9, lifeEnd := some 1048580 }
theorem wit_Lifetimes : ∀ q, q ∈ [ReqState.parked, .summary] → ((now_ (serving near [(7, aging q)])).req 7).lifeEnd = some 1048580 ∧
    (now_ (serving near [(7, aging q)])).now ≤ 1048580 ∧ ((now_ (serving near [(7, aging q)])).req 7).state = q ∧
    (((now_ (serving near [(7, aging q)])).upto 1048580).req 7).state = q := by decide +kernel
/-- A sequence that is being summarised, on a job with some summary places taken. -/
def summing (used : List Nat) (dropped : Bool) : State :=
  serving { sumUsed := used } [(7, { state := .parked, job := 9, summarising := true, cancelled := dropped, dropped := dropped })]
theorem wit_SummaryComplete : (∀ c, c ∈ [false, true] → ∀ l, l ∈ [[0], [0, 1]] →
      ((now_ (summing l c)).job ((now_ (summing l c)).req 7).job).bind (fun j => j.serve) = some { sumUsed := l } ∧
      ((now_ (summing l c)).req 7).summarising = true ∧ ({ sumUsed := l } : Serve).coming 7 = 0 ∧ ((now_ (summing l c)).req 7).dropped = c) ∧
    (∃ j, (now_ (summing [0] false)).job 9 = some j ∧ 1 < (now_ (summing [0] false)).srv j 0x30 4) ∧ 1 ∉ [0] ∧ (∀ p, p < 1 → p ∈ [0]) ∧
    (∃ j, (now_ (summing [0, 1] false)).job 9 = some j ∧ ∀ p, p < (now_ (summing [0, 1] false)).srv j 0x30 4 → p ∈ [0, 1]) ∧
    ∀ c, c ∈ (now_ (summing [0, 1] false)).cmds → c.waiting = true → c.opcode ≠ 0x0504 :=
  ⟨by decide +kernel, ⟨_, rfl, by decide +kernel⟩, by decide, by decide, ⟨_, rfl, by decide +kernel⟩, by decide +kernel⟩
/-- Versions 1 and 2 of expert set 0, the second not in place. -/
def expertSet : Serve := { versions := [{ set := 0, version := 1, slots := [0, 1], weights := 0, inPlace := true },
                                        { set := 0, version := 2, slots := [2, 3], weights := 64 }] }
theorem wit_ExpertWeights : ((now_ (serving expertSet [])).job 9).bind (fun j => j.serve) = some expertSet ∧
    ∃ x, x ∈ expertSet.versions ∧ x.set = 0 ∧ x.version = 2 ∧ x.inPlace = false ∧ x.copiedAt = none :=
  ⟨by decide +kernel, _, .tail _ (.head _), rfl, rfl, rfl, rfl⟩
/-- The second version copied, and the EXPERT_LOAD that waits for it. -/
def version2 : ExpertVersion := { set := 0, version := 2, slots := [2, 3], weights := 64, copiedAt := some 5 }
/-- Its job. -/
def copied : Serve := { versions := [{ set := 0, version := 1, slots := [0, 1], weights := 0, inPlace := true }, version2] }
/-- Its command. -/
def loading : Cmd := { id := 1, opcode := 0x0601, call := { win := 1, partition := 0, params := table 48 [(0, 9)] }, collected := 5, keys := [.job 9], started := true }
theorem wit_ExpertWeights_placed : ∃ u, u = now_ { serving copied [] with cmds := [loading] } ∧ version2 ∈ copied.versions ∧
    version2.inPlace = false ∧ version2.copiedAt = some 5 ∧ 5 < u.now ∧ (u.job 9).bind (fun j => j.serve) = some copied ∧
    u.cmds.find? (fun c => c.works 0x0601 9 && c.waiting && c.call.par 2 1 == version2.set) = some loading :=
  ⟨_, rfl, .tail _ (.head _), rfl, rfl, by decide +kernel, by decide +kernel, by decide +kernel⟩
theorem wit_ManagementTick_experts : ∃ u w, u = now_ (serving copied []) ∧ w = u.upto u.nextTick ∧ w.start.stage = .running ∧ w.cmds = [] ∧
    ∀ x, x ∈ (w.serve 9).versions → x.set = 0 → x.version = 2 → ∃ c, x.copiedAt = some c ∧ c < w.now :=
  ⟨_, _, rfl, rfl, by decide +kernel, by decide +kernel, fun x h => by
    have h1 : ((now_ (serving copied [])).upto (now_ (serving copied [])).nextTick).serve 9 = copied := by decide +kernel
    rw [h1] at h
    simp only [copied, List.mem_cons, List.not_mem_nil, or_false] at h
    obtain rfl | rfl := h
    · intro _ k; exact absurd k (by decide)
    · intro _ _; exact ⟨5, rfl, by decide +kernel⟩⟩
/-- The manifest of a job without items, held on its own dies. -/
def manifest0 : Image := image 1 0 0 [(5, table 96 [])] [] []
/-- A catalogue entry of job 9. -/
def entry9 : CatEntry := { part := 0, job := 9, number := 4, step := 77, places := [] }
theorem wit_Checkpoints_interval : ∀ p, p ∈ [true, false] →
    ∃ j, ((now_ { one manifest0 { job0 with intervalEnd := some 5, interval := 1 } with drive := { present := p } }).upto 5).job 9 = some j ∧
    ((now_ { one manifest0 { job0 with intervalEnd := some 5, interval := 1 } with drive := { present := p } }).job 9).bind
      (fun x => x.intervalEnd) = some 5 ∧
    ((now_ { one manifest0 { job0 with intervalEnd := some 5, interval := 1 } with drive := { present := p } }).upto 5).leads j = true ∧
    ((now_ { one manifest0 { job0 with intervalEnd := some 5, interval := 1 } with drive := { present := p } }).upto 5).drive.present = p ∧
    ((now_ { one manifest0 { job0 with intervalEnd := some 5, interval := 1 } with drive := { present := p } }).upto 5).hasManifest j = true ∧
    j.capAsk = none := by
  intro p h
  simp only [List.mem_cons, List.not_mem_nil, or_false] at h
  obtain rfl | rfl := h
  all_goals exact ⟨{ job0 with intervalEnd := some 5, interval := 1 }, by decide +kernel⟩
theorem wit_Checkpoints_noManifest :
    ∃ j, ((now_ (one plain { job0 with intervalEnd := some 5, interval := 1 })).upto 5).job 9 = some j ∧
    ((now_ (one plain { job0 with intervalEnd := some 5, interval := 1 })).upto 5).leads j = true ∧
    ((now_ (one plain { job0 with intervalEnd := some 5, interval := 1 })).upto 5).hasManifest j = false :=
  ⟨{ job0 with intervalEnd := some 5, interval := 1 }, by decide +kernel⟩
theorem wit_Checkpoints_complete :
    (now_ { one manifest0 { job0 with copying := some (entry9, 0, [(1, [7])]) } with drive := { present := true } }).job 9 =
      some { job0 with copying := some (entry9, 0, [(1, [7])]) } ∧
    (now_ { one manifest0 { job0 with copying := some (entry9, 0, [(1, [7])]) } with drive := { present := true } }).drive.present = true := by
  decide +kernel
/-- A capture that has been read. -/
def capture4 : Capture := { number := 4, checkpoint := false, step := 77, stamp := 9, body := 0, items := [] }
theorem wit_SnapshotComplete : (now_ (one manifest0 { job0 with capture := some capture4 })).job 9 = some { job0 with capture := some capture4 } ∧
    ∀ r, (none : Option StepRun) = some r → r.capture = false := ⟨by decide +kernel, fun _ h => nomatch h⟩
theorem wit_DieLoss_start : (now_ (starting 6)).start.stage = .phase 6 ∧ (now_ (starting 6)).dieUp 4 = true ∧ (now_ (starting 6)).lostDies = [] ∧
    (now_ { starting 6 with lostDies := [1] }).lostDies = [1] ∧ (now_ { starting 6 with lostDies := [1] }).dieUp 4 = true := by decide +kernel
theorem wit_DieLoss : (now_ idle).start.stage = .running ∧ (now_ idle).dieUp 4 = true ∧ (now_ idle).failed = false ∧
    (∀ a, a ∈ (now_ idle).acts → a.2 ≠ .loss 4) ∧ (now_ { idle with lostDies := [1] }).dieUp 4 = true ∧
    (now_ { idle with acts := [(65536, .loss 1)] }).acts = [(65536, .loss 1)] := by decide +kernel
/-- A paused job that restores a snapshot. -/
def restoring9 : Job := { job0 with mode := .paused, restoring := some (0, 9, 4, false) }
theorem wit_Restores : ∃ u j e, u = (now_ { one manifest0 restoring9 with catalogue := [entry9] }).atFrame ∧ u.job 9 = some j ∧ j.mode = .paused ∧
    j.replay = false ∧ j.resident = true ∧ (∀ c, c ∈ u.cmds → c.opcode ≠ 0x0403) ∧
    j.restoring = some (j.part, e.job, e.number, e.checkpoint) ∧ u.catEntry j.part e.job e.number e.checkpoint = some e ∧
    (restoreItems u 9 j e []).1 = some 0 :=
  ⟨_, restoring9, entry9, rfl, by decide +kernel, rfl, rfl, rfl, by decide +kernel, rfl, by decide +kernel, by decide +kernel⟩
/-- The image above with an alternate body for die 2. -/
def twoBodies : Image :=
  { image 1 0 4 [(5, table 96 [])] [] [] with sections := [{ type := 10, body := 3, flags := 5, data := table 96 [] }] }
theorem wit_Restores_remap : ∃ u j w body tiles,
    u = (now_ { one twoBodies { job0 with mode := .remapping, resident := false } with lostDies := [2] }).atFrame ∧ u.job 9 = some j ∧
    j.mode = .remapping ∧ u.lostDies.getLast? = some 2 ∧ remapBody u j 2 = some body ∧
    w = { j with resident := false, binding := [], body := body } ∧ j.resident = false ∧
    placeable (u.setJob 9 w) 9 w [] = some tiles ∧ j.restoring = none :=
  ⟨_, { job0 with mode := .remapping, resident := false }, _, 3, [], rfl, by decide +kernel, rfl, by decide +kernel, by decide +kernel, rfl, rfl,
    by decide +kernel, rfl⟩
/-- A switch to job 9, which has been resident before, from job 8, on one tile of die 0. -/
def switch9 (begun : Bool) : Switch :=
  { part := 0, incoming := 9, outgoing := [8], decided := 5, binding := [(0, 0)], begun := begun,
    phases := if begun then [(2, 65536)] else [], now_ := if begun then [(0, 2)] else [] }
/-- The module that makes it; job 8 has stopped. -/
def switching (begun : Bool) : State :=
  { one (image 1 0 0 [] [0] []) job0 with
      jobs := [(8, { job0 with binding := [(0, 0)], leaving := some 0 }), (9, { job0 with resident := false, everResident := true })],
      parts := [(0, { state := .open_, tiles := 1, grant1 := 1 })], switches := [switch9 begun] }
theorem wit_ContextSwitch_start : ∃ u v w t0, u = now_ (switching false) ∧ u.switches.find? (fun x => x.incoming == 9) = some w ∧
    t0 = max (frameUp u.now) (nextFrame w.decided) ∧ v = u.upto t0 ∧ switchReady u w = true ∧ w ∈ v.switches ∧ switchReady v w = true ∧
    ∃ d, d < 5 ∧ phaseFrom v w d 0 ≠ 5 :=
  ⟨_, _, switch9 false, _, rfl, by decide +kernel, rfl, rfl, by decide +kernel, by decide +kernel, by decide +kernel, 0, by decide, by decide +kernel⟩
theorem wit_ContextSwitch_phase : ∃ u v w t0 k, u = now_ (switching true) ∧ u.switches.find? (fun x => x.incoming == 9) = some w ∧
    SMap.getD 5 w.now_ 0 = k ∧ k ≠ 5 ∧ w.begun = true ∧
    t0 = SMap.getD 0 w.phases (8 * 0 + k) + 65536 * phaseFrames u w 0 k ∧ u.now ≤ t0 ∧ v = u.upto t0 ∧ w ∈ v.switches ∧
    phaseFrom (phaseWork v w 0 k) w 0 (k + 1) ≠ 5 :=
  ⟨_, _, switch9 true, _, 2, rfl, by decide +kernel, by decide +kernel, by decide, rfl, rfl, by decide +kernel, rfl, by decide +kernel, by decide +kernel⟩
/-- The last phase of that switch on its only die. -/
def restore9 : Switch := { switch9 true with phases := [(4, 65536)], now_ := [(0, 4), (1, 5)] }
theorem wit_ContextSwitch_done : ∃ u v w t0 k, u = now_ { switching true with switches := [restore9] } ∧
    u.switches.find? (fun x => x.incoming == 9) = some w ∧ SMap.getD 5 w.now_ 0 = k ∧ k ≠ 5 ∧ w.begun = true ∧
    t0 = SMap.getD 0 w.phases (8 * 0 + k) + 65536 * phaseFrames u w 0 k ∧ u.now ≤ t0 ∧ v = u.upto t0 ∧ w ∈ v.switches ∧
    phaseFrom (phaseWork v w 0 k) w 0 (k + 1) = 5 ∧ ∀ e, e ∈ w.now_ → e.1 = 0 ∨ e.2 = 5 :=
  ⟨_, _, restore9, _, 4, rfl, by decide +kernel, by decide +kernel, by decide, rfl, rfl, by decide +kernel, rfl, by decide +kernel, by decide +kernel, by decide +kernel⟩
/-- The base point of P-256 as a key. -/
def keyG : List Byte := keyBytes p256G
/-- The header of a management request of 4 bytes of the operator window. -/
def request (op n : Nat) : List Byte := table 16 [(0, op), (4, n), (8, 2 ^ 40 + 0x1000000)]
/-- One connection of the operator's mask, or of none. -/
def connected (mask : Nat) : State := { idle with conns := [(1, { port := 0, mask := mask })] }
theorem wit_ManagementPorts : portsUp (now_ idle) = true ∧ 1 < 2 ∧ keyG.length = 64 ∧ onCurve (keyPoint keyG) = true ∧
    ((now_ idle).conns.filter (fun e => e.2.port == 1)).length < 16 ∧ (now_ idle).store.access = [] ∧
    (now_ { idle with store := { access := [(3, { mask := 2, key := keyG })] } }).store.access.find? (fun e => e.2.key == keyG) =
      some (3, { mask := 2, key := keyG }) ∧
    SMap.find (now_ (connected 1)).conns 1 = some { port := 0, mask := 1 } ∧
    requestOk (request 1 4) 1 = true ∧ requestOk (request 1 3) 1 = false ∧ requestOk (request 2 4) 2 = true ∧
    requestReaches 1 (leAt (request 2 4) 8 8 - 2 ^ 40) 4 = true ∧ requestReaches 0 (leAt (request 2 4) 8 8 - 2 ^ 40) 4 = false := by
  decide +kernel
theorem wit_QuiesceEnds : (now_ { idle with quiesce := .closing }).quiesce = .closing ∧
    (now_ { one plain { job0 with stop := some { frame := 1, reached := true } } with quiesce := .orderly }).quiesce = .orderly ∧
    ∀ e, e ∈ (now_ { one plain { job0 with stop := some { frame := 1, reached := true } } with quiesce := .orderly }).jobs →
      (e.2.stop.map (fun x => x.reached)) = some true := by decide +kernel

/-! ### Witnesses: host commands -/

/-- What a command takes effect as, where it meets every condition of `Takes`. -/
def takenIn (i : Instr) (s : State) : Option (State × Cmd) :=
  match hostRow i with
  | some (dt, op, c) =>
    let u := atSlot s dt op c
    if i.wf = true ∧ c.mem = [] ∧ (boundaryFor s dt c).takesNext c.win = true ∧ u.cmds = [] ∧ u.mayCollect c.win = true ∧ firstCheck u op c (blockOf u c) = none ∧
        gate (collectedIn u op c) (cmdOf u op c) = none then some (collectedIn u op c, cmdOf u op c) else none
  | none => none

/-- A command is taken and the rest of a statement's hypotheses holds of what it takes effect as. -/
def Met (i : Instr) (s : State) (P : State → Cmd → Prop) : Prop := ∃ v x, Takes i s v x ∧ P v x

theorem met {i : Instr} {s : State} {P : State → Cmd → Prop} [∀ v x, Decidable (P v x)]
    (h : (takenIn i s).any (fun r => decide (P r.1 r.2)) = true) : Met i s P := by
  unfold takenIn at h
  cases hr : hostRow i with
  | none => simp [hr] at h
  | some q =>
    obtain ⟨dt, op, c⟩ := q
    simp only [hr] at h
    split at h
    · rename_i g
      simp only [Option.any_some, decide_eq_true_eq] at h
      exact ⟨_, _, ⟨⟨dt, op, c, _, hr, g.1, rfl, g.2.2.1, g.2.2.2.1, g.2.2.2.2.1, g.2.2.2.2.2.1, rfl, rfl, g.2.2.2.2.2.2⟩, g.2.1⟩, h⟩
    · simp at h

/-- A packet for a window: its inline parameters. -/
def packet (win : Nat) (l : List (Nat × Nat)) : Call :=
  { win := win, partition := if win = 0 then 0xFF else win - 1, params := table 48 l }
/-- A packet whose parameters are a block of some bytes at the beginning of the parameter area. -/
def blockPacket (win bytes : Nat) : Call := { packet win [] with flags := 1, length := bytes / 32 }
/-- A state with a window open, its parameter area holding some bytes. -/
def opened (s : State) (win : Nat) (block : List Byte) : State :=
  { s with wins := [(win, { isOpen := true, area := Mem.write [] 0x100000 block })] }
/-- The operator's window open, with a block. -/
def op (s : State) (block : List Byte) : State := opened s 0 block
/-- Partition 0's window open, with a block. -/
def pt (s : State) (block : List Byte) : State := opened s 1 block

/-- A packet that firmware cannot serve for a memory error of controller 67, in the last hub package. -/
def spoilt : Call := { packet 0 [(0, 200)] with mem := [{ ctl := 67, status := .uncorrectable, ago := 0, scrub := false }] }
theorem wit_CommandOutcome_memory : ∃ v x, Collected (.riskSetThreshold 0 spoilt) (op idle []) v x ∧ anyLost x.call.mem = true :=
  ⟨_, _, ⟨0, 0x0902, _, _, rfl, by decide +kernel, rfl, by decide +kernel, by decide +kernel, by decide +kernel, by decide +kernel, rfl, rfl, by decide +kernel⟩,
    by decide +kernel⟩
theorem wit_CommandOutcome : Met (.riskSetThreshold 0 (packet 0 [(0, 200)])) (op idle []) (fun _ _ => True) ∧
    ∃ dt o c u st, hostRow (.partSeal 0 { packet 0 [] with partition := 3 }) = some (dt, o, c) ∧
      (Instr.partSeal 0 { packet 0 [] with partition := 3 }).wf = true ∧ u = atSlot (op idle []) dt o c ∧
      (boundaryFor (op idle []) dt c).takesNext c.win = true ∧
      u.cmds = [] ∧ u.mayCollect c.win = true ∧ firstCheck u o c (blockOf u c) = some st ∧ st ≠ 0 :=
  ⟨met (by decide +kernel), 0, 0x0103, _, _, 0x20, rfl, by decide +kernel, rfl, by decide +kernel, by decide +kernel, by decide +kernel,
    by decide +kernel, by decide⟩
/-- The block of partition 11: dedicated, tile 59, one slice frame, the whole of tier 1 and all of tier 2 but the last GiB of
die 4. -/
def partBlock : List Byte :=
  table 256 [(0, 11), (1, 1), (4, 1), (8, 2 ^ 59), (0x50, 2 ^ 63 + 96 * 2 ^ 16), (0x58, 2 ^ 63 + 255 * 2 ^ 16)]
/-- The partition that it asks for. -/
def asked (x : Cmd) : Part := { ({} : Part).withBlock x.block with state := .open_, privileged := bitOf (leAt x.block 2 1) 0 }
theorem wit_PartitionCreated : Met (.partCreate 0 (blockPacket 0 256)) (op idle partBlock) (fun v x =>
      leAt x.block 0 1 = 11 ∧ (v.part 11).state = .free ∧ partFits v 11 (asked x) = true ∧ stillClearing v (asked x) = false) ∧
    Met (.partCreate 0 (blockPacket 0 256)) (op { idle with parts := [(11, { state := .closing })] } partBlock)
      (fun v x => leAt x.block 0 1 = 11 ∧ (v.part 11).state ≠ .free) ∧
    Met (.partCreate 0 (blockPacket 0 256)) (op { idle with lostDies := [4] } partBlock)
      (fun v x => leAt x.block 0 1 = 11 ∧ partFits v 11 (asked x) = false) := ⟨met (by decide +kernel), met (by decide +kernel), met (by decide +kernel)⟩
/-- Partition 11 as it stands, with a tile. -/
def part11 (st : PartState) : State := { idle with parts := [(11, { state := st, tiles := 2 ^ 58 })] }
theorem wit_PartitionCommands :
    Met (.partDestroy 0 (packet 0 [(0, 11)])) (op (part11 .sealed) []) (fun v _ =>
      v.jobsOf 11 = [] ∧ (v.part 11).state ≠ .free ∧ (packet 0 [(0, 11)]).win ≠ 11 + 1) ∧
    Met (.partSeal 0 (packet 0 [(0, 11)])) (op (part11 .open_) []) (fun v _ => (v.part 11).state = .open_) ∧
    Met (.partSeal 0 (packet 0 [(0, 11)])) (op (part11 .sealed) []) (fun v _ => (v.part 11).state = .sealed) ∧
    Met (.partSetSlice 0 (blockPacket 0 256)) (op (part11 .open_) partBlock) (fun v x =>
      leAt x.block 0 1 = 11 ∧ (∀ e, e ∈ v.jobsOf 11 → sliceHits (v.part 11) ((v.part 11).withBlock x.block) e.2 = false) ∧
      (v.part 11).state = .open_ ∧ bitOf (leAt x.block 2 1) 0 = (v.part 11).privileged ∧
      partFits v 11 ((v.part 11).withBlock x.block) = true ∧ stillClearing v ((v.part 11).withBlock x.block) = false) :=
  ⟨met (by decide +kernel), met (by decide +kernel), met (by decide +kernel), met (by decide +kernel)⟩
/-- A command of partition 11 whose work waits for a frame boundary. -/
def waits (op : Nat) : Cmd :=
  { id := 1, opcode := op, call := { packet 0 [(0, 11)] with flags := if op = 0x0104 then 1 else 0 }, block := partBlock, collected := 5,
    keys := [], started := true }
theorem wit_PartitionCommands_boundary : ∀ o, o ∈ [0x0102, 0x0104] → ∃ w, w = { part11 .closing with cmds := [waits o] } ∧
    w.cmds = [waits o] ∧ (waits o).opcode = o ∧ (waits o).started = true ∧ (waits o).reply = none ∧ (waits o).partition = 11 ∧
    (waits o).call.win ≠ 11 + 1 ∧ w.jobsOf 11 = [] ∧ w.switches = [] := by
  intro o h
  simp only [List.mem_cons, List.not_mem_nil, or_false] at h
  obtain rfl | rfl := h
  all_goals exact ⟨_, rfl, rfl, rfl, rfl, rfl, by decide +kernel, by decide, by decide +kernel, rfl⟩
theorem wit_ImageCommands :
    Met (.imageLoad 0 (packet 1 [(8, 4096), (16, 64)])) (pt (one plain job0) []) (fun v _ =>
      imageFile v (packet 1 [(8, 4096), (16, 64)]) = some (List.replicate 64 0) ∧ 1 < 16 ∧ v.image 0 1 = none ∧
      (∀ k, k < 1 → v.image 0 k ≠ none) ∧ (verdict v 0 (List.replicate 64 0)).1 = 0x20) ∧
    Met (.imageUnload 0 (packet 1 [])) (pt { one plain job0 with jobs := [] } []) (fun v _ =>
      ∀ e, e ∈ v.jobs → ¬ (e.2.part = 0 ∧ e.2.handle = 0)) := ⟨met (by decide +kernel), met (by decide +kernel)⟩
/-- The block of JOB_START of job 10: its image handle, its identifier, its first frame. -/
def jobBlock : List Byte := table 128 [(4, 10), (8, 40)]
/-- The notice bound 1,024 and one frame a step, in an image's header. -/
def runnable : Image := { plain with header := table 256 [(6, 1), (0x10, 1), (0x14, 1024)] }
theorem wit_JobStarted : ∃ i j0, Met (.jobStart 0 (blockPacket 1 128)) (pt (one runnable job0) jobBlock) (fun v x =>
    leAt x.block 4 2 = 10 ∧ v.image 0 (leAt x.block 0 4) = some i ∧ j0 = newJob v x i ∧ bitOf (leAt x.block 6 2) 1 = false ∧
    bitOf (leAt x.block 6 2) 3 = false ∧ v.quiesce = .none ∧ (v.part 0).state ≠ .closing ∧ (i.flag 2 = true → v.number ≠ none) ∧
    v.job 10 = none ∧ lacksRoom v j0 i = false ∧ quotasFit v (ownEntries i j0.body 0 (Config.carryQuota % 65)) = true ∧
    j0.serve = none ∧ linkReason v i j0.body = none ∧ i.flag 3 = false) := by
  refine ⟨runnable, _, _, _, ⟨⟨0, 0x0301, _, _, rfl, by decide +kernel, rfl, by decide +kernel, by decide +kernel, by decide +kernel,
    by decide +kernel, rfl, rfl, by decide +kernel⟩, rfl⟩, by decide +kernel, by decide +kernel, rfl, by decide +kernel, by decide +kernel,
    by decide +kernel, by decide +kernel, by decide +kernel, by decide +kernel, by decide +kernel, ?_, by decide +kernel, by decide +kernel,
    by decide +kernel⟩
  rfl
/-- A paused, a running and a busy job. -/
def paused9 : Job := { job0 with mode := .paused, nextStep := 5, u := 3 }
/-- A job in the middle of a step. -/
def busy9 : Job := { job0 with run := some { number := 4, start := 0, frames := 9 } }
/-- A command at work for job 9. -/
def waiting9 : Cmd := { id := 1, opcode := 0x0303, call := packet 1 [(0, 9)], collected := 5, keys := [.job 9], started := true }
/-- Job 9 in its step on a tile of die 1, job 8 in its step on one of die 0, and that command. -/
def struck : State :=
  { one plain job0 with
      cmds := [waiting9],
      jobs := [(8, { job0 with binding := [(0, 0)], run := busy9.run }), (9, { job0 with binding := [(14, 14)], run := busy9.run })] }
theorem wit_fences : (∀ e, e ∈ struck.jobs → e.2.stop = none) ∧ struck.switches = [] ∧
    (struck.job 9).any (fun j => touches struck j 1 && j.mode != .halted) = true ∧
    (∀ y, y ∈ struck.jobs → y.1 = 8 → touches struck y.2 1 = false) ∧ waiting9 ∈ struck.cmds ∧ waiting9.waiting = true ∧
    waiting9.names (.job 9) = true ∧ waiting9.opcode ≠ 0x0B01 ∧ waiting9.opcode ≠ 0x0901 ∧ waiting9.opcode ≠ 0x0A01 := by decide +kernel
/-- The loss of die 1 answers the command and takes job 9 alone. -/
theorem test_die_loss : ((applyAct struck 65536 (.loss 1)).cmds.map (fun c => c.reply.map (fun r => r.status))) = [some 0x31] ∧
    ((applyAct struck 65536 (.loss 1)).jobs.map (fun e => (e.2.mode, e.2.run.isSome))) = [(.running, true), (.halted, false)] := by decide +kernel
/-- The trip pauses every context and answers the command. -/
theorem test_trip : ((applyAct struck 65536 .trip).cmds.map (fun c => c.reply.map (fun r => r.status))) = [some 0x31] ∧
    ((applyAct struck 65536 .trip).jobs.map (fun e => (e.2.mode, e.2.run.isSome))) = [(.paused, false), (.paused, false)] := by decide +kernel
/-- A replay job, paused before step 5, with the original record of step 6. -/
def replay9 : Job :=
  { paused9 with replay := true, restored := some (0, 9, 4), records := [{ step := 6, outcome := 0, record := table 128 [(0, 6)], report := [] }] }
/-- The block of STEP_REPLAY of steps 5 to 7. -/
def replayBlock : List Byte := table 192 [(0, 9), (8, 5), (0x10, 7)]
/-- The replay that it asks for. -/
def replayOf (v : State) (x : Cmd) : ReplayRun :=
  { last := leAt x.block 0x10 8, trace := 0, source := originals (replaySource v x replay9)
    excluded := (List.range (leAt x.block 4 1)).map (fun k => leAt x.block (0x40 + 2 * k) 2)
    area := 32 * leAt x.block 0x18 8, areaLen := leAt x.block 0x20 8 }
theorem wit_JobCommands :
    (∀ j, j ∈ [paused9, job0, busy9] → Met (.jobPause 0 (packet 1 [(0, 9)])) (pt (one plain j) []) (fun v _ => v.job 9 = some j ∧
      (j = paused9 → j.mode = .paused) ∧ (j ≠ paused9 → j.mode = .running) ∧ (j.busyBefore (frameOf v.now + 1) = decide (j = busy9)))) ∧
    Met (.jobResume 0 (packet 1 [(0, 9), (8, 3), (24, 7)])) (pt { one runnable paused9 with plumb := { state := .locked } } []) (fun v _ =>
      v.job 9 = some paused9 ∧ v.jobImage paused9 = some runnable ∧ paused9.mode = .paused ∧ paused9.replay = false ∧ v.quiesce = .none ∧
      v.plumb.state.runs = true ∧ paused9.restored = none ∧ (packet 1 [(0, 9), (8, 3), (24, 7)]).par 8 8 = paused9.u ∧
      linkReason v runnable paused9.body = none) ∧
    (∀ j, j ∈ [paused9, busy9] → Met (.jobStop 0 (packet 1 [(0, 9), (8, 2 ^ 64 - 1)])) (pt (one plain j) []) (fun v _ => v.job 9 = some j ∧
      v.switches = [] ∧ (packet 1 [(0, 9), (8, 2 ^ 64 - 1)]).par 8 8 = 2 ^ 64 - 1 ∧ j.busyBefore (frameOf v.now + 1) = decide (j = busy9) ∧ j.stop = none)) ∧
    Met (.stepReplay 0 (blockPacket 1 192)) (pt (one plain replay9) replayBlock) (fun v x => leAt x.block 0 2 = 9 ∧ v.job 9 = some replay9 ∧
      replay9.replay = true ∧ replay9.mode = .paused ∧ replay9.ready = true ∧ v.quiesce = .none ∧ leAt x.block 8 8 = replay9.nextStep ∧
      leAt x.block 2 1 = 0 ∧ replayNext (replayOf v x) replay9.nextStep = some 6) := by
  refine ⟨?_, met (by decide +kernel), ?_, met (by decide +kernel)⟩
  · intro j h
    simp only [List.mem_cons, List.not_mem_nil, or_false] at h
    obtain rfl | rfl | rfl := h
    all_goals exact met (by decide +kernel)
  · intro j h
    simp only [List.mem_cons, List.not_mem_nil, or_false] at h
    obtain rfl | rfl := h
    all_goals exact met (by decide +kernel)
/-- JOB_STOP of job 9, collected. -/
def stopping : Cmd := { id := 1, opcode := 0x0304, call := packet 1 [(0, 9), (8, 2 ^ 64 - 1)], collected := 5, keys := [.job 9], started := true }
/-- What it asks of the job. -/
def stopped : Stop := { last := none, frame := 1, ends := true }
theorem wit_JobCommands_fence : ∃ w j, w = { one plain j with cmds := [stopping] } ∧ w.job 9 = some j ∧ j.stop = some stopped ∧
    stopped.ends = true ∧ j.run = none ∧ w.cmds = [stopping] ∧ stopping.works 0x0304 9 = true ∧ stopping.reply = none ∧
    ∀ z, z ∈ w.switches → z.incoming ≠ 9 :=
  ⟨_, { job0 with stop := some stopped }, rfl, by decide +kernel, rfl, rfl, rfl, rfl, by decide +kernel, rfl, by decide +kernel⟩
/-- A capture asked for. -/
def ask9 : CapAsk := { number := 5, checkpoint := false }
theorem wit_JobCommands_lateCommit : ∃ w, w = { one plain { job0 with selector := true, u := 3 } with now := 65536 } ∧
    (w.job 9).map (fun j => (j.selector, j.u)) = some (true, 3) := ⟨_, rfl, by decide +kernel⟩
theorem wit_SnapshotCommands :
    (∀ k, k ∈ [none, some ask9] → Met (.snapTake 0 (packet 1 [(0, 9), (2, 1)]))
      (pt { one manifest0 { job0 with capAsk := k } with drive := { present := true } } []) (fun v _ => v.job 9 = some { job0 with capAsk := k } ∧
        v.hasManifest { job0 with capAsk := k } = true ∧ v.leads { job0 with capAsk := k } = true ∧ v.drive.present = true)) ∧
    Met (.snapRestore 0 (packet 1 [(0, 9), (4, 4), (8, 9)])) (pt { one manifest0 paused9 with catalogue := [entry9] } []) (fun v _ =>
      (packet 1 [(0, 9), (4, 4), (8, 9)]).par 8 2 = 9 ∧ (packet 1 [(0, 9), (4, 4), (8, 9)]).par 0 2 = 9 ∧ v.job 9 = some paused9 ∧
      paused9.mode = .paused ∧ v.catEntry 0 9 ((packet 1 [(0, 9), (4, 4), (8, 9)]).par 4 4) false = some entry9) ∧
    Met (.snapVerify 0 (packet 1 [(0, 9), (4, 4)])) (pt { one manifest0 job0 with catalogue := [entry9] } []) (fun v _ =>
      v.job 9 = some job0 ∧ v.catEntry 0 9 ((packet 1 [(0, 9), (4, 4)]).par 4 4) false = some entry9) := by
  refine ⟨?_, met (by decide +kernel), met (by decide +kernel)⟩
  intro k h
  simp only [List.mem_cons, List.not_mem_nil, or_false] at h
  obtain rfl | rfl := h
  all_goals exact met (by decide +kernel)
/-- A serving job. -/
def sjob (v : Serve) : Job := { job0 with kind := 3, serve := some v }
/-- It has 3 slots, its partition a window, tenant 2 a budget that is enabled or not; and entries. -/
def served (v : Serve) (enable : Bool) (rs : SMap Req) : State :=
  { one { image 3 0 0 [(1, table 32 [(0x14, 64)]), (4, table 128 [(0x18, 3), (0x34, 5), (0x64, 2)])] [] [] with
          header := table 256 [(6, 3), (0x18, 100)] } (sjob v) with
      parts := [(0, { state := .open_, windows := [(0, { base := 0, len := 1 })] })], requests := rs,
      budgets := [(2, { enable := enable, part := 0 })] }
/-- An admission block of job 9 for tenant 2 with one token. -/
def admission : List Byte :=
  table 224 [(0, 9), (2, 2), (0x10, 10), (0x14, 1), (64 + 0xC, 1), (64 + 0x10, 1), (64 + 0x14, 0x3F800000), (192, 33)]
/-- The entries of a job that holds slots 0 and 2, and one of another job between them. -/
def twoIn : SMap Req := [(0, { state := .decode, job := 9, head := 0 }), (1, { state := .waiting, job := 8, head := 1 }),
                         (2, { state := .parked, job := 9, head := 2 }), (3, { state := .free }), (4, { state := .finished, job := 8 })]
set_option synthInstance.maxSize 1000 in
theorem wit_RequestAdmitted :
    Met (.reqAdmit 0 (blockPacket 1 224)) (pt (served {} true twoIn) admission) (fun v x => leAt x.block 0 2 = 9 ∧ v.job 9 = some (sjob {}) ∧
      ((sjob {}).replay = false ∧ v.leads (sjob {}) = true ∧ (v.budget (leAt x.block 2 2)).enable = true ∧
        (v.budget (leAt x.block 2 2)).part = (sjob {}).part ∧ (∀ q, q ∈ v.requests → q.2.state ≠ .free → q.1 ≠ 3) ∧ 3 < 16384 ∧
        (∀ k, k < 3 → ∃ r, r ∈ v.requests ∧ r.1 = k ∧ r.2.state ≠ .free) ∧ 1 < v.srv (sjob {}) 0x18 4 ∧
        (∀ q, q ∈ v.requests → q.2.job = 9 → q.2.state ≠ .free → q.2.head ≠ 1) ∧
        (∀ k, k < 1 → ∃ q, q ∈ v.requests ∧ q.2.job = 9 ∧ q.2.state ≠ .free ∧ q.2.head = k))) ∧
    Met (.reqAdmit 0 (blockPacket 1 224)) (pt (served {} false twoIn) admission) (fun v x => v.job 9 = some (sjob {}) ∧
      (v.budget (leAt x.block 2 2)).enable = false) := ⟨met (by decide +kernel), met (by decide +kernel)⟩
/-- An entry of job 9 in some state. -/
def entry (q : ReqState) : SMap Req := [(6, { state := q, job := 9 })]
theorem wit_RequestCommands :
    (∀ q, q ∈ [ReqState.prefill, .unparking, .waiting, .parked, .summary] →
      Met (.reqCancel 0 (packet 1 [(0, 9), (4, 6)])) (pt (served {} true (entry q)) []) (fun v _ => v.job 9 = some (sjob {}) ∧
        (sjob {}).replay = false ∧ v.leads (sjob {}) = true ∧ (v.req 6).cancelled = false ∧ (v.req 6).state = q ∧
        (v.req 6).summarising = false)) ∧
    Met (.reqPause 0 (packet 1 [(0, 9), (4, 6)])) (pt (served {} true (entry .decode)) []) (fun v _ => v.job 9 = some (sjob {}) ∧
      (v.req 6).running = true ∧ (v.req 6).cancelled = false) ∧
    (∀ q, q ∈ [ReqState.parked, .summary] → Met (.reqResume 0 (packet 1 [(0, 9), (4, 6)])) (pt (served {} true (entry q)) []) (fun v x =>
      v.job 9 = some (sjob {}) ∧ leAt ((packet 1 [(0, 9), (4, 6)]).fields x.block) 4 4 = 6 ∧ (packet 1 [(0, 9), (4, 6)]).indirect = false ∧
      (v.req 6).state = q ∧ (v.req 6).dropped = false ∧ (v.req 6).released = false)) := by
  refine ⟨?_, met (by decide +kernel), ?_⟩
  · intro q h
    simp only [List.mem_cons, List.not_mem_nil, or_false] at h
    obtain rfl | rfl | rfl | rfl | rfl := h
    all_goals exact met (by decide +kernel)
  · intro q h
    simp only [List.mem_cons, List.not_mem_nil, or_false] at h
    obtain rfl | rfl := h
    all_goals exact met (by decide +kernel)
/-- A REQ_RESUME of entry 6 with one token more. -/
def resumeBlock : List Byte := table 64 [(0, 9), (4, 6), (8, 1), (32, 33)]
theorem wit_RequestCommands_more : Met (.reqResume 0 (blockPacket 1 64)) (pt (served {} true (entry .parked)) resumeBlock) (fun v x =>
    v.job 9 = some (sjob {}) ∧ leAt ((blockPacket 1 64).fields x.block) 0 2 = 9 ∧ leAt ((blockPacket 1 64).fields x.block) 4 4 = 6 ∧
    (blockPacket 1 64).indirect = true ∧ tokensAt x.block 32 (leAt x.block 8 4) ≠ [] ∧ (v.req 6).state = .parked ∧ (v.req 6).dropped = false) :=
  met (by decide +kernel)
/-- A serving job with the record of step 12 posted. -/
def posted12 : Serve := { posted := [{ step := 12, place := 1, bytes := 96, entries := [] }], newest := some 12, usedPlaces := [1] }
theorem wit_ResultCommands : ∀ i, i ∈ [Instr.resultRead 0, .resultRelease 0] →
    Met (i (packet 1 [(0, 9), (8, 12)])) (pt (served posted12 true []) []) (fun v _ =>
      v.job 9 = some (sjob posted12) ∧ (sjob posted12).serve = some posted12 ∧ v.leads (sjob posted12) = true ∧
      ((v.serve 9).posted.find? (fun q => q.step == 12)).isSome = true) ∧
    Met (i (packet 1 [(0, 9), (8, 12)])) (pt (served {} true []) []) (fun v _ => (v.serve 9).posted = [] ∧ (v.serve 9).newest = none) ∧
    Met (i (packet 1 [(0, 9), (8, 13)])) (pt (served posted12 true []) []) (fun v _ =>
      (∀ q, q ∈ (v.serve 9).posted → q.step ≠ 13) ∧ (v.serve 9).newest = some 12) := by
  intro i h
  simp only [List.mem_cons, List.not_mem_nil, or_false] at h
  obtain rfl | rfl := h
  all_goals exact ⟨met (by decide +kernel), met (by decide +kernel), met (by decide +kernel)⟩
/-- A set whose versions hold all expert slots but two. -/
def nearlyFull : Serve := { versions := [{ set := 1, version := 7, slots := List.range 254, weights := 0 }] }
theorem wit_ExpertCommands :
    Met (.expertLoad 0 (packet 1 [(0, 9), (2, 1), (8, 64)])) (pt (served nearlyFull true []) []) (fun v _ => v.job 9 = some (sjob nearlyFull) ∧
      v.leads (sjob nearlyFull) = true ∧ v.srv (sjob nearlyFull) 0x64 4 ≤ ((List.range 256).filter (fun n =>
        !(v.jobs.flatMap (fun e => (v.serve e.1).versions.flatMap (fun y => y.slots))).contains n)).length) ∧
    Met (.expertRetire 0 (packet 1 [(0, 9), (2, 1), (4, 7)])) (pt (served nearlyFull true []) []) (fun v _ =>
      ∃ y, y ∈ (v.serve 9).versions ∧ y.set = 1 ∧ y.version = 7) := ⟨met (by decide +kernel), met (by decide +kernel)⟩
theorem wit_BudgetSet : (∀ m, m ∈ [0, 8] → Met (.budgetSet 0 (packet 1 [(0, 2), (2, m), (3, 1)])) (pt idle []) (fun v _ =>
      (v.budget 2).enable = false ∧ (bitOf m 3 = false ∨ bitOf 1 0 = true))) ∧
    Met (.budgetSet 0 (packet 1 [(0, 2), (2, 7)])) (pt (served {} true []) []) (fun v _ => (v.budget 2).enable = true ∧ (v.budget 2).part = 0) ∧
    Met (.budgetSet 0 (packet 1 [(0, 2)])) (pt { idle with budgets := [(2, { enable := true, part := 5 })] } []) (fun v _ =>
      (v.budget 2).enable = true ∧ (v.budget 2).part ≠ 0) ∧
    Met (.budgetSet 0 (packet 1 [(0, 2), (2, 8)])) (pt (served {} true []) []) (fun v _ => (v.budget 2).enable = true ∧ (v.budget 2).part = 0 ∧
      bitOf ((packet 1 [(0, 2), (2, 8)]).par 2 1) 3 = true ∧ bitOf ((packet 1 [(0, 2), (2, 8)]).par 3 1) 0 = false) := by
  refine ⟨?_, met (by decide +kernel), met (by decide +kernel), met (by decide +kernel)⟩
  intro m h
  simp only [List.mem_cons, List.not_mem_nil, or_false] at h
  obtain rfl | rfl := h
  all_goals exact met (by decide +kernel)
/-- The four rows of LINK_RETRAIN with their actions. -/
def retrains (c : Call) : List (Nat × Instr) :=
  [(0, .linkRetrain 0 c), (1, .linkRetrainDisable 0 c), (2, .linkRetrainEnable 0 c), (3, .linkRetrainLimit 0 c)]
/-- A packet of LINK_RETRAIN for link 63. -/
def link63 (k : Nat) : Call := packet 0 [(0, 2 ^ 63), (8, k), (9, 2)]
/-- A job that uses link 63. -/
def uses63 : State := one (image 1 4 0 [] [] [(4, table 32 [(4, 1), (16, 63 * 2 ^ 122)])]) job0
theorem wit_FabricCommands :
    Met (.fabricDiscover 0 (packet 0 [(0, 3), (1, 1), (2, 1023), (8, 1048576 - 1536)])) (op idle []) (fun _ _ => True) ∧
    Met (.routeInstall 0 (blockPacket 0 64)) (op idle (table 64 [(0, 1023), (2, 1), (32, 2 ^ 31)])) (fun _ _ => True) ∧
    (∀ k, k < 4 → (link63 k).par 8 1 = k) ∧ (∀ k, k < 4 → ∀ i, (k, i) ∈ retrains (link63 k) → Met i (op idle []) (fun v _ =>
        ∀ l, l < 64 → bitOf ((link63 k).par 0 8) l = true → linkInUse v l = false) ∧
      Met i (op uses63 []) (fun v _ => bitOf (link63 k).flags 1 = false ∧ 63 < 64 ∧ bitOf ((link63 k).par 0 8) 63 = true ∧
        linkInUse v 63 = true)) := by
  refine ⟨met (by decide +kernel), met (by decide +kernel), by decide +kernel, ?_⟩
  intro k hk i hi
  have hk : k = 0 ∨ k = 1 ∨ k = 2 ∨ k = 3 := by omega
  obtain rfl | rfl | rfl | rfl := hk
  all_goals
    simp [retrains] at hi
    subst hi
    exact ⟨met (by decide +kernel), met (by decide +kernel)⟩
/-- Link 62 without a signal and link 63 ACTIVE, and a command of id 1. -/
def twoLinks : State := { idle with cmds := [waiting9], links := [(62, {}), (63, { state := .active })] }
theorem wit_FabricCommands_boundary : ([2 ^ 31 + 7, 0] : List Nat)[1]? = some 0 ∧ waiting9 ∈ twoLinks.cmds ∧ waiting9.waiting = true ∧
    waiting9.id = 1 ∧ bitOf (2 ^ 63 + 2 ^ 62) 62 = true ∧ bitOf (2 ^ 63 + 2 ^ 62) 63 = true ∧ bitOf (2 ^ 63 + 2 ^ 62) 61 = false ∧
    (mayTrain twoLinks 63 && ((twoLinks.link 63).up || (twoLinks.link 63).state == .training || decide (2 ≤ laneCount (twoLinks.link 63).signal))) = true ∧
    (mayTrain twoLinks 62 && ((twoLinks.link 62).up || (twoLinks.link 62).state == .training || decide (2 ≤ laneCount (twoLinks.link 62).signal))) = false := by
  decide +kernel
/-- A route that ROUTE_INSTALL writes at index 5, and a link that trains again. -/
theorem test_routes : (SMap.find (applyAct twoLinks 65536 (.routes 5 [2 ^ 31 + 7 * 2 ^ 18 + 3 * 64 + 9] 1)).routes 5) =
      some { valid := true, altValid := false, hops := 7, primary := 3, alternate := 9 } ∧
    ((applyAct twoLinks 65536 (.links (2 ^ 63 + 2 ^ 62) 0 0 1)).link 63).state = .training ∧
    ((applyAct twoLinks 65536 (.links (2 ^ 63 + 2 ^ 62) 0 0 1)).link 62).state = .down := by decide +kernel
theorem wit_HealthCommands :
    Met (.healthRead 0 (packet 0 [(0, 4), (8, 1), (16, 4096)])) (op idle []) (fun _ _ => (packet 0 [(0, 4), (8, 1), (16, 4096)]).win = 0) ∧
    (∀ k, k ∈ [5, 12] → Met (.healthRead 0 (packet 1 [(0, k), (2, 9), (8, 1), (16, 4096)])) (pt (one plain job0) []) (fun _ _ =>
      4 < k ∧ k ≠ 11)) ∧
    (∀ k, k ∈ [4, 11] → Met (.healthRead 0 (packet 1 [(0, k)])) (pt idle []) (fun _ _ => k ≤ 4 ∨ k = 11)) ∧
    Met (.riskSetThreshold 0 (packet 0 [(0, 255)])) (op idle []) (fun _ _ => True) := by
  refine ⟨met (by decide +kernel), ?_, ?_, met (by decide +kernel)⟩
  all_goals
    intro k h
    simp only [List.mem_cons, List.not_mem_nil, or_false] at h
    obtain rfl | rfl := h
    all_goals exact met (by decide +kernel)
theorem wit_Quote : Met (.attestQuote 0 (packet 1 [(0, 77)])) (pt (one plain job0) []) (fun _ _ => True) := met (by decide +kernel)
theorem wit_KeysInstalled :
    Met (.installImageKey 0 (blockPacket 1 96)) (pt idle (table 32 [(1, 15)] ++ keyG)) (fun _ x => leAt x.block 0 1 = 0) ∧
    Met (.removeImageKey 0 (blockPacket 1 32)) (pt idle (table 32 [(0, 1), (1, 8)])) (fun _ x => leAt x.block 0 1 = 1) ∧
    Met (.setAccessEntry 0 (blockPacket 0 96)) (op idle (table 32 [(0, 2), (1, 63), (4, 1)] ++ keyG)) (fun _ x => leAt x.block 0 1 = 2) :=
  ⟨met (by decide +kernel), met (by decide +kernel), met (by decide +kernel)⟩
/-- A quote's header that carries the base point as both public keys, its own signature by private key 1 with nonce 2, and the same
with one bit changed; the signature was made outside Lean. -/
def quoteBlock (spoil : Nat) : List Byte :=
  table 32 [(0, 3)] ++ table 64 [(0, spoil)] ++ keyG ++ keyG ++ List.replicate 64 0
    ++ leBytes 64 0x6fffff1c7d33ea8eefe3d4fcd1fb204a7f634a4ce586b0aabc2dd297e88bd6f178996647fc480ba6351bf277e26989c0c31ab5040338528a7e4f038d187bf27c
theorem wit_KeyPairs :
    Met (.exportKeyPair 0 (blockPacket 1 0x160)) (pt (one plain job0) (quoteBlock 0)) (fun _ x => leAt x.block 0 1 = 3 ∧
      signatureOk (slice (slice x.block 0x20 256) 0x40 64) (slice x.block 0x20 256) (slice x.block 0x120 64) = true ∧
      onCurve (keyPoint (slice (slice x.block 0x20 256) 0x80 64)) = true) ∧
    Met (.exportKeyPair 0 (blockPacket 1 0x160)) (pt (one plain job0) (quoteBlock 1)) (fun _ x => leAt x.block 0 1 = 3 ∧
      signatureOk (slice (slice x.block 0x20 256) 0x40 64) (slice x.block 0x20 256) (slice x.block 0x120 64) = false) ∧
    Met (.importKeyPair 0 (blockPacket 1 0x160)) (pt idle (table 0x160 [(0, 4)])) (fun v x => leAt x.block 0 1 = 4 ∧ v.jobsOf 0 = []) ∧
    Met (.importKeyPair 0 (blockPacket 1 0x160)) (pt (one plain job0) (table 0x160 [(0, 4)])) (fun v x =>
      leAt x.block 0 1 = 4 ∧ v.jobsOf 0 ≠ []) :=
  ⟨met (by decide +kernel), met (by decide +kernel), met (by decide +kernel), met (by decide +kernel)⟩
theorem wit_QuiesceCommands :
    Met (.orderlyQuiesce 0 (packet 0 [])) (op idle []) (fun v _ => (packet 0 []).par 0 1 = 0 ∧ v.quiesce = .none ∧ v.jobs = []) ∧
    (∀ q, q ∈ [Quiesce.none, .orderly] → Met (.emergencyQuiesce 0 (packet 0 [(0, 1)])) (op { idle with quiesce := q } []) (fun v _ =>
      (packet 0 [(0, 1)]).par 0 1 = 1 ∧ v.quiesce = q)) ∧
    Met (.orderlyQuiesce 0 (packet 0 [])) (op { idle with quiesce := .done } []) (fun v _ => v.quiesce = .done) ∧
    Met (.emergencyQuiesce 0 (packet 0 [(0, 1)])) (op { idle with quiesce := .done } []) (fun v _ => v.quiesce = .done) := by
  refine ⟨met (by decide +kernel), ?_, met (by decide +kernel), met (by decide +kernel)⟩
  intro q h
  simp only [List.mem_cons, List.not_mem_nil, or_false] at h
  obtain rfl | rfl := h
  all_goals exact met (by decide +kernel)

/-! ### Witnesses: the life of a step, the homes of the reduction -/

/-- Job 9 of an image, on a module whose data plane runs. -/
def live (i : Image) (j : Job) : State := { one i j with plumb := { state := .locked, source := 64 } }
/-- A step from cycle 0 on. -/
def run9 (frames : Nat) : StepRun := { number := 4, start := 0, frames := frames, update := true }
/-- A SYNC section. -/
def syncs (ds : List Nat) : Nat × List Byte := (7, table 16 [(0, ds.length)] ++ ds.flatMap (leBytes 8))
/-- The image of one barrier, which expects one arrival by cycle 100. -/
def barrier : Image := image 1 0 0 [] [] [syncs [2 ^ 32 + 100]]
/-- The same as the commit object of a training map. -/
def committing : Image := image 1 0 0 [(3, table 64 [])] [] [syncs [2 ^ 59 + 2 ^ 32 + 100]]
theorem wit_StepLife_start : ∃ u v j t0, u = now_ (live plain { job0 with nextAt := some 65536 }) ∧ v = u.upto t0 ∧ u.job 9 = some j ∧
    v.job 9 = some j ∧ j.nextAt = some t0 ∧ u.now ≤ t0 ∧ (u.settle t0).job 9 = some j ∧ stepReady (u.settle t0) 9 j = true :=
  ⟨_, _, { job0 with nextAt := some 65536 }, 65536, rfl, rfl, by decide +kernel⟩
/-- A job in its step, with some arrivals. -/
def beating (n : Nat) : Job := { job0 with run := some (run9 2), sync := [(0, { count := n })] }
theorem wit_StepLife_beats : ∀ n, n ∈ [0, 1] → ∃ u v r d c, u = now_ (live barrier (beating n)) ∧
    (u.job 9).bind (fun x => beatAt u x 0) = some c ∧ v = u.upto c ∧ (u.job 9).bind u.commitObject ≠ some 0 ∧ v.job 9 = some (beating n) ∧
    (beating n).live = some r ∧ (syncDecls (v.jobSection (beating n) 7))[0]? = some d ∧
    beatFires v r d (SMap.getD {} (beating n).sync 0) = decide (n = 1) := by
  intro n h
  simp only [List.mem_cons, List.not_mem_nil, or_false] at h
  obtain rfl | rfl := h
  all_goals exact ⟨_, _, run9 2, { counter := false, scope := 0, commit := false, expected := 1, beat := 100 }, 100, rfl, by decide +kernel, rfl,
    by decide +kernel, by decide +kernel, rfl, by decide +kernel, by decide +kernel⟩
/-- The same at its commit beat, with some NaNs. -/
def nearCommit (n nans : Nat) : Job := { beating n with nanSum := nans }
theorem wit_StepLife_commit : ∀ n nans, n ∈ [0, 1] → nans ∈ [0, 1] → ∃ u v r d c, u = now_ (live committing (nearCommit n nans)) ∧
    (u.job 9).bind u.commitObject = some 0 ∧ (u.job 9).bind (fun x => beatAt u x 0) = some c ∧ v = u.upto c ∧
    v.job 9 = some (nearCommit n nans) ∧ (nearCommit n nans).live = some r ∧ (nearCommit n nans).replayRun = none ∧
    (syncDecls (v.jobSection (nearCommit n nans) 7))[0]? = some d ∧
    beatFires v r d (SMap.getD {} (nearCommit n nans).sync 0) = decide (n = 1) ∧ r.update = true ∧ (nearCommit n nans).applyNan = false ∧
    (nearCommit n nans).nanSum + nanTotal r.words = nans := by
  intro n nans h k
  simp only [List.mem_cons, List.not_mem_nil, or_false] at h k
  obtain rfl | rfl := h <;> obtain rfl | rfl := k
  all_goals exact ⟨_, _, run9 2, { counter := false, scope := 0, commit := true, expected := 1, beat := 100 }, 100, rfl, by decide +kernel,
    by decide +kernel, rfl, by decide +kernel, rfl, rfl, by decide +kernel, by decide +kernel, rfl, rfl, by decide +kernel⟩
/-- A job in its step's only frame. -/
def ending : Job := { job0 with run := some (run9 1) }
theorem wit_StepLife_end : ∃ u v r c, u = now_ (live plain ending) ∧ (u.job 9).bind (fun x => x.live) = some r ∧ r.stop = c + 1 ∧ u.now ≤ c ∧
    ((u.settle c).job 9).bind (fun x => x.live) = some r ∧ r.faults = [] ∧ v = (u.settle c).through c ∧ v.job 9 = some ending ∧
    ending.live = some r ∧ beatsTaken v ending r = true ∧ ending.replayRun = none ∧ ending.stop = none ∧ ending.serve = none :=
  ⟨_, _, run9 1, 65535, rfl, by decide +kernel, by decide, by decide +kernel, by decide +kernel, rfl, rfl, by decide +kernel, rfl,
    by decide +kernel, rfl, rfl, rfl⟩
/-- A fault of the step at cycle 100, as a record and as its 32 bytes. -/
def fault4 : FaultRec :=
  { stamp := 100, step := 4, module := 0, die := 0, tile := 0, unit := 3, code := 1, secondary := false, object := 0, record := 0, digest := 0 }
/-- A job whose step holds that fault, of a kind that serves or not. -/
def faulty (kind : Nat) : Job := { job0 with kind := kind, run := some { run9 2 with faults := [fault4] } }
theorem wit_Abandonment_notice : faultFrom (leBytes 32 (100 * 2 ^ 192 + 4 * 2 ^ 144 + 3 * 2 ^ 123 + 2 ^ 115)) = fault4 ∧
    (now_ (live plain { job0 with run := some (run9 2) })).job 9 = some { job0 with run := some (run9 2) } ∧
    (run9 2).listClosed = false ∧
    recordFor (now_ (live plain { job0 with run := some (run9 2) })) fault4 { job0 with run := some (run9 2) } (run9 2) = true ∧
    recordFor (now_ (live plain { job0 with run := some (run9 2) })) { fault4 with step := 5 } { job0 with run := some (run9 2) } (run9 2) = false := by
  decide +kernel
theorem wit_Abandonment_boundary : ∀ k, k ∈ [1, 3] → ∃ u v r b, u = now_ (live plain (faulty k)) ∧
    (u.job 9).bind (fun x => x.live.bind (fun y => y.boundary x.notice)) = some b ∧ u.now ≤ b ∧ (u.settle b).job 9 = some (faulty k) ∧
    (faulty k).live = some r ∧ r.boundary (faulty k).notice = some b ∧ (u.settle b).now ≤ b ∧
    v = closeFaults ((u.settle b).reach b) 9 b ∧ v.job 9 = some (faulty k) ∧ (faulty k).stop = none ∧ (faulty k).replayRun = none ∧
    serves (faulty k).kind = decide (k = 3) := by
  intro k h
  simp only [List.mem_cons, List.not_mem_nil, or_false] at h
  obtain rfl | rfl := h
  all_goals exact ⟨_, _, { run9 2 with faults := [fault4] }, 65536, rfl, by decide +kernel, by decide +kernel, by decide +kernel, rfl,
    by decide +kernel, by decide +kernel, rfl, by decide +kernel, rfl, rfl, by decide +kernel⟩
/-- A paused job whose abandoned step's list is still open, and its JOB_START. -/
def closing9 : State :=
  { live plain { job0 with mode := .paused, closing := some { run9 2 with faults := [fault4], abandoned := true } } with
      now := 65536, cmds := [{ id := 1, opcode := 0x0301, call := packet 1 [], collected := 5, keys := [.job 9], started := true }] }
theorem wit_Abandonment_close : ∃ u v j c b, u = now_ closing9 ∧ u.job 9 = some j ∧ j.closing.bind (fun x => x.boundary j.notice) = some b ∧
    v = u.upto (b + j.notice) ∧ v.job 9 = some j ∧ j.closing = some c ∧ c.faults = fault4 :: [] ∧ j.mode = .paused ∧
    ∃ k, k ∈ v.cmds ∧ k.waiting = true ∧ k.works 0x0301 9 = true :=
  ⟨_, _, { job0 with mode := .paused, closing := some { run9 2 with faults := [fault4], abandoned := true } },
    { run9 2 with faults := [fault4], abandoned := true }, 65536, rfl, by decide +kernel, by decide +kernel, rfl, by decide +kernel, rfl, rfl, rfl,
    by decide +kernel⟩
/-- SCREED_SLOTS of one bucket, number 3, homed at controller 2 of die 1, of 524,288 elements, that closes at cycle 1,000 with 10 of
grace and settles at 2,000. -/
def screed : Nat × List Byte :=
  (5, table 16 [(0, 1)] ++ leBytes 64 (3 * 2 ^ 496 + 2 ^ 483 + 2 * 2 ^ 481 + 2 ^ 480 + 2 ^ 475 + 0xFF * 2 ^ 433 + 1000 * 2 ^ 384 + 10 * 2 ^ 368
    + 2000 * 2 ^ 336))
/-- A job in its step at the home of that bucket. -/
def homing (h : SMap BucketRun) : Job := { job0 with run := some { run9 2 with homes := h }, attempt := 6 }
/-- Its module: the window and the ownership entry hold the accumulators. -/
def home (h : SMap BucketRun) : State :=
  { live (image 1 0 0 [(3, table 64 [])] [] [screed, syncs [2 ^ 59 + 2 ^ 32 + 100]]) (homing h) with
      parts := [(0, { state := .open_, windows := [(2, { base := 0, len := 1 })], grant1 := 1 })],
      ctls := [(6, { own := [(9, { part := 0, quota := 0, base := 0, length := 4 })] })] }
theorem wit_JobStarted_boundary :
    (∃ i b, (home []).job 9 = some (homing []) ∧ (home []).jobImage (homing []) = some i ∧ b ∈ homedBuckets i (homing []).body ∧
      ((home []).part (homing []).part).windowAddr b.die false (32 * b.acc) (8 * b.elements) = some 0) ∧ (home []).job 8 = none ∧
    (∃ w j, w = switching false ∧ w.job 9 = some j ∧ w.switches.find? (fun x => x.incoming == 9) = some (switch9 false) ∧
      (switch9 false).binding = [(0, 0)]) :=
  ⟨⟨(image 1 0 0 [(3, table 64 [])] [] [screed, syncs [2 ^ 59 + 2 ^ 32 + 100]]), bucketOf (leNat (screed.2.drop 16)), by decide +kernel,
    by decide +kernel, by decide +kernel, by decide +kernel⟩, by decide +kernel,
    ⟨_, { job0 with resident := false, everResident := true }, rfl, by decide +kernel, by decide +kernel, rfl⟩⟩
theorem wit_RequestAdmitted_counts : ∃ w j, w = home [] ∧ w.job 9 = some j ∧ [1, 2].length ≤ 64 ∧
    (w.part j.part).windowAddr 1 false 0 64 = some 0 := ⟨_, homing [], rfl, by decide +kernel⟩
/-- A packet for it of one S8 value at the last offset, under a step tag, or for a job that owns nothing there. -/
def packetTo (job tag : Nat) : List Byte :=
  leBytes 32 (job * 2 ^ 244 + 3 * 2 ^ 228 + 524287 * 2 ^ 152 + 2 ^ 140 + tag * 2 ^ 63 + 2 * 2 ^ 61) ++ [5]
theorem wit_ScreedHomes_foreign : SMap.find ((now_ (home [])).ctl (4 * 1 + (packetFrom (packetTo 8 6)).controller)).own (packetFrom (packetTo 8 6)).job =
    none ∧ (now_ (home [])).job (packetFrom (packetTo 8 6)).job = none := by decide +kernel
theorem wit_ScreedHomes_packets : ∀ tag, tag ∈ [6, 5] → ∃ p own r b a, p = packetFrom (packetTo 9 tag) ∧
    SMap.find ((now_ (home [])).ctl (4 * 1 + p.controller)).own p.job = some own ∧ (now_ (home [])).job p.job = some (homing []) ∧
    (homing []).replayRun = none ∧ (homing []).live = some r ∧ (now_ (home [])).bucketEntry (homing []) p.bucket = some b ∧ b.homed = true ∧
    b.die = 1 ∧ b.ctl = p.controller ∧ own.base * 2 ^ 20 ≤ 32 * b.acc ∧ 32 * b.acc + 8 * b.elements ≤ (own.base + own.length) * 2 ^ 20 ∧
    (∀ x, x ∈ p.vals → x.1 < b.elements) ∧ accAddr (now_ (home [])) (homing []) b = some a ∧ r.forced = [] ∧
    (SMap.getD ({} : BucketRun) r.homes p.bucket).closed = false ∧ closeBeat r b = some 1010 ∧ (now_ (home [])).now ≤ 1010 ∧
    (p.attempt = (homing []).tag ↔ tag = 6) ∧ (homing []).voided = false ∧ homeSlots (now_ (home [])) own.part = true := by
  intro tag h
  simp only [List.mem_cons, List.not_mem_nil, or_false] at h
  obtain rfl | rfl := h
  all_goals exact ⟨_, { part := 0, quota := 0, base := 0, length := 4 }, run9 2, bucketOf (leNat (screed.2.drop 16)), 0, rfl, by decide +kernel⟩
theorem wit_ScreedHomes_close : ∃ u v b n, u = now_ (home []) ∧ u.job 9 = some (homing []) ∧ (homing []).live = some (run9 2) ∧
    u.bucketEntry (homing []) 3 = some b ∧ b.homed = true ∧ closeBeat (run9 2) b = some n ∧ u.now ≤ n ∧
    (SMap.getD ({} : BucketRun) (run9 2).homes 3).closed = false ∧ v = (u.settle n).through n ∧ v.job 9 = some (homing []) ∧
    v.bucketEntry (homing []) 3 = some b ∧ accAddr v (homing []) b = some 0 ∧
    (∀ q, q ∈ v.ctls → ∀ p, p ∈ q.2.carry → p.job ≠ 9 ∨ p.bucket ≠ 3) :=
  ⟨_, _, bucketOf (leNat (screed.2.drop 16)), 1010, rfl, by decide +kernel, rfl, by decide +kernel, by decide +kernel, by decide +kernel,
    by decide +kernel, by decide +kernel, rfl, by decide +kernel, by decide +kernel, by decide +kernel, by decide +kernel⟩
/-- The bucket with a packet of exponent -3. -/
def taken3 : SMap BucketRun := [(3, { packets := 1, exponent := some (-3) })]
theorem wit_ScreedHomes_peak : ∃ u v b, u = now_ (home taken3) ∧ u.job 9 = some (homing taken3) ∧ u.bucketEntry (homing taken3) 3 = some b ∧
    closeBeat { run9 2 with homes := taken3 } b = some 1010 ∧ v = (u.settle 1010).through 1010 ∧ v.job 9 = some (homing taken3) ∧
    (SMap.getD ({} : BucketRun) taken3 3).closed = false ∧ (SMap.getD ({} : BucketRun) taken3 3).exponent = some (-3) ∧
    homeSlots v (homing taken3).part = true :=
  ⟨_, _, bucketOf (leNat (screed.2.drop 16)), rfl, by decide +kernel, by decide +kernel, by decide +kernel, rfl, by decide +kernel, by decide +kernel,
    by decide +kernel, by decide +kernel⟩
/-- `home` with a map whose one parameter entry holds the bucket, and a tier-2 window for its state sets. -/
def mapped (h : SMap BucketRun) : State :=
  { live (image 1 0 0 [(3, table 64 [(0, 1)] ++ leBytes 32 (2 ^ 213 + 2 ^ 212 + 524288 * 2 ^ 164))] [] [screed, syncs [2 ^ 59 + 2 ^ 32 + 100]]) (homing h) with
      parts := [(0, { state := .open_, windows := [(2, { base := 0, len := 1 }), (3, { base := 0, len := 1 })], grant1 := 1, grant2 := 1 })],
      ctls := [(6, { own := [(9, { part := 0, quota := 0, base := 0, length := 4 })] })] }
theorem wit_ScreedHomes_grad : ∃ v b, v = ((now_ (mapped taken3)).settle 1010).through 1010 ∧
    v.bucketEntry (homing taken3) 3 = some b ∧ gradAddr v (homing taken3) b true = some (12 * 524288) ∧ (v.part (homing taken3).part).grant2 ≠ 0 ∧
    (homing taken3).replayRun = none :=
  ⟨_, bucketOf (leNat (screed.2.drop 16)), rfl, by decide +kernel, by decide +kernel, by decide +kernel, rfl⟩
/-- The bucket closed, its word not sent. -/
def closed3 : SMap BucketRun := [(3, { closed := true })]
theorem wit_ScreedHomes_send : ∃ u v b n, u = now_ (home closed3) ∧ u.job 9 = some (homing closed3) ∧
    (homing closed3).live = some { run9 2 with homes := closed3 } ∧ u.bucketEntry (homing closed3) 3 = some b ∧ n = 0 + b.settle ∧
    (SMap.getD ({} : BucketRun) closed3 3).closed = true ∧ (SMap.getD ({} : BucketRun) closed3 3).sent = false ∧ u.now ≤ n ∧
    v = u.upto n ∧ v.job 9 = some (homing closed3) :=
  ⟨_, _, bucketOf (leNat (screed.2.drop 16)), _, rfl, by decide +kernel, rfl, by decide +kernel, rfl, by decide +kernel, by decide +kernel,
    by decide +kernel, rfl, by decide +kernel⟩
theorem wit_ScreedHomes_word : ∃ d, (now_ (home [])).job 9 = some (homing []) ∧ (homing []).live = some (run9 2) ∧
    leAt ((now_ (home [])).jobConstant (homing []) 3) 0x20 4 = 0 ∧ (syncDecls ((now_ (home [])).jobSection (homing []) 7))[0]? = some d ∧
    (SMap.getD ({} : SyncObj) (homing []).sync 0).beaten = false ∧ ((now_ (home [])).bucketEntry (homing []) 4).any (fun b => b.homed) = false :=
  ⟨{ counter := false, scope := 0, commit := true, expected := 1, beat := 100 }, by decide +kernel⟩
/-- A job that has sent the word of its own bucket. -/
def sentOwn : Job := { homing [] with run := some { run9 2 with sentWords := [(3, leBytes 16 (4 * 2 ^ 80))] } }
theorem wit_ScreedHomes_own : ∃ u r, u = { now_ (home []) with jobs := [(9, sentOwn)] } ∧ u.job 9 = some sentOwn ∧ sentOwn.live = some r ∧
    (u.bucketEntry sentOwn 3).any (fun b => b.homed) = true ∧ SMap.find r.sentWords 3 = some (leBytes 16 (4 * 2 ^ 80)) ∧
    (∀ x, x ∈ r.words → x.bucket ≠ 3 ∨ x.step ≠ r.number) ∧
    wordCounts sentOwn r (closeWordFrom 3 (leBytes 16 (4 * 2 ^ 80))) = true ∧ wordCounts sentOwn r (closeWordFrom 3 (leBytes 16 (5 * 2 ^ 80))) = false :=
  ⟨_, { run9 2 with sentWords := [(3, leBytes 16 (4 * 2 ^ 80))] }, rfl, by decide +kernel⟩

/-! ### Witnesses: links -/

/-- A module with link 7 in some state, at some cycle. -/
def linked (n : Nat) (l : Link) : State := { idleAt n with links := [(7, l)] }
theorem wit_LinkTraining :
    ((now_ (linked 5 {})).link 7).state = .down ∧ ((now_ (linked 5 {})).link 7).ladderFailed = false ∧ 2 ≤ laneCount 12 ∧
    mayTrain (now_ (linked 5 {})) 7 = true ∧ mayTrain (now_ (linked (second / 2) { state := .training })) 7 = true ∧
    mayTrain (now_ (linked 9 { state := .training, waiting := true })) 7 = true ∧ mayTrain (now_ (linked 9 { state := .hello })) 7 = true ∧
    ((now_ (linked (second / 2) { state := .training })).link 7).state = .training ∧
    ((now_ (linked (second / 2) { state := .training })).link 7).waiting = false ∧
    (now_ (linked (second / 2) { state := .training })).now ≤ ((now_ (linked (second / 2) { state := .training })).link 7).since + second / 2 ∧
    (nextRung { (linked 0 { state := .training, signal := 15 }).link 7 with excluded := 1 } 1).isSome = true ∧
    nextRung { (linked 0 { state := .training, signal := 15 }).link 7 with excluded := 5 } 1 = none ∧
    ((now_ (linked 9 { state := .training, waiting := true })).link 7).waiting = true ∧
    (now_ (linked second { state := .training, waiting := true })).now ≤
      ((now_ (linked second { state := .training, waiting := true })).link 7).since + second ∧
    ((now_ (linked 9 { ladderFailed := true, signal := 3 })).link 7).state = .down ∧
    ((now_ (linked 9 { ladderFailed := true, signal := 3 })).link 7).ladderFailed = true ∧
    2 ≤ laneCount ((now_ (linked 9 { ladderFailed := true, signal := 3 })).link 7).signal ∧
    mayTrain (now_ (linked 9 { ladderFailed := true, signal := 3 })) 7 = true ∧ ((now_ (linked 9 { state := .disabled })).link 7).state = .disabled ∧
    ((now_ (linked 9 {})).link 7).state ≠ .disabled ∧ ((now_ (linked 9 { state := .hello })).link 7).up = true ∧ 15 < 16 := by
  decide +kernel
theorem wit_LinkTraining_down : ((linked 9 { state := .disabled }).link 7).state = .disabled ∧
    (∃ w, w = { linked 9 { state := .active } with plumb := { state := .locked, source := 7 } } ∧ (w.link 7).state ≠ .disabled ∧
      w.plumb.source = 7 ∧ w.plumb.state = .locked ∧ (w.link 7).up = true) := ⟨by decide +kernel, _, rfl, by decide +kernel⟩
/-- A flit in the scheduled queue of a link. -/
def queued : QFlit := { point := 12, ready := 0, part := 0, flit := { type := 1, job := 9 } }
/-- A trained link of full width, at its second send point, in common time. -/
def sending (l : Link) : State := linked 12 { l with state := .active, width := 3, timeClass := .common }
theorem wit_FlitsSent_points :
    (∀ l, l ∈ [({} : Link), { sched := [queued] }] → ((now_ (sending l)).link 7).up = true ∧ ((now_ (sending l)).link 7).state = .active ∧
      isPoint ((now_ (sending l)).link 7).width (now_ (sending l)).now = true ∧ isTimingPoint (now_ (sending l)).now = false ∧
      (now_ (sending l)).now % 1024 ≠ 0) ∧
    ((now_ (sending { sched := [queued] })).link 7).scheduled = true ∧ ((now_ (sending { sched := [queued] })).link 7).room = true ∧
    nextScheduled ((now_ (sending { sched := [queued] })).link 7) (now_ (sending { sched := [queued] })).now = some queued ∧
    queued.flit.type = 1 ∧ queued.flit.last = false ∧ ((now_ (sending {})).link 7).sched = [] ∧ ((now_ (sending {})).link 7).lossQ = [] ∧
    ((now_ (sending {})).link 7).best = [] ∧ (∀ x, x ∈ ((now_ (sending {})).link 7).replay → x.due = false) ∧
    isPoint ((now_ (linked 13 { state := .active, width := 3 })).link 7).width (now_ (linked 13 { state := .active, width := 3 })).now = false := by
  decide +kernel
theorem wit_FlitsSent_timing : ∃ u v n, u = now_ (linked 65472 { state := .active }) ∧ (u.link 7).state = .active ∧ n = frameOf u.now * 65536 + 65472 ∧
    u.now ≤ n ∧ v = u.upto n ∧ v.plumb.hop < 16 := ⟨_, _, 65472, rfl, by decide +kernel, by decide +kernel, by decide +kernel, rfl, by decide +kernel⟩
/-- A flit that has been sent again some times. -/
def sent5 (n : Nat) : Sent := { flit := { type := 1, seq := 5 }, sentAt := 0, resends := n }
theorem wit_FlitsSent_resend : ∀ n, n ∈ [2, 3] →
    ((now_ (linked 456 { state := .active, delay := 100, replay := [sent5 n] })).link 7).replay.find? (fun y => y.flit.seq == 5) = some (sent5 n) ∧
    (sent5 n).due = false ∧ (sent5 n).sentAt + 2 * ((now_ (linked 456 { state := .active, delay := 100, replay := [sent5 n] })).link 7).delay + 256 ≤
      (now_ (linked 456 { state := .active, delay := 100, replay := [sent5 n] })).now := by decide +kernel
theorem noDuplicates_of {s : State} (h : ∀ e, e ∈ s.links → ∀ x, x ∈ e.2.hello → duplicateHello s x = false) : NoDuplicates s :=
  fun e x he hx => h e he x hx
/-- A receive that is open, of tile 14 of this module, by entry 2. -/
def open2 : Recv := { id := 1, job := 9, unit := 7, entry := 2, tile := 14, address := 0, delivery := 90, units := 8 }
/-- A job with that receive. -/
def receiving : Job := { job0 with binding := [(14, 14)], run := some { run9 2 with recvs := [open2] }, sync := [(0, { count := 1 })] }
/-- Its module, with an ACTIVE link in common time that expects number 10. -/
def receiver (st : LinkState) : State :=
  { live barrier receiving with links := [(7, { state := st, timeClass := .common, rxNext := 10 })], tiles := [(14, { job := some 9 })] }
/-- A flit of a type for an address. -/
def flitTo (type dest : Nat) : Flit := { type := type, seq := 10, job := 9, dest := dest, word := 2 * 1024, payload := table 240 [(2, 1)] }
theorem wit_FlitsReceived_state : (∀ st, st ∈ [LinkState.down, .active, .hello] → ((upon_ (receiver st)).link 7).up = decide (st ≠ .down)) ∧
    NoDuplicates (upon_ (receiver .active)) ∧ (flitTo 1 0x12).seq = ((upon_ (receiver .active)).link 7).rxNext ∧
    ((upon_ (receiver .active)).link 7).rxNext < 4096 ∧ 2048 ≤ seqAhead ((upon_ (receiver .active)).link 7).rxNext 9 ∧
    9 ∉ ((upon_ (receiver .active)).link 7).rxMissing ∧ ((upon_ (receiver .hello)).link 7).hello = none ∧
    NoDuplicates ((upon_ (receiver .hello)).updLink 7 (fun x => { x with hello := some (helloFrom (flitTo 5 0).payload 0) })) :=
  ⟨by decide +kernel, noDuplicates_of (by decide +kernel), by decide +kernel, by decide +kernel, by decide +kernel, by decide +kernel, by decide +kernel,
    noDuplicates_of (by decide +kernel)⟩
theorem wit_FlitsReceived_landing : ∀ n, n ∈ [1, 6] → ((upon_ (receiver .active)).link 7).timeClass = .common ∧
    (addrParts (flitTo n 0x12).dest).1 = (upon_ (receiver .active)).moduleNumber ∧ (addrParts (flitTo n 0x12).dest).2 = (1, 2) ∧
    (upon_ (receiver .active)).job 9 = some receiving ∧ receiving.resident = true ∧ receiving.tileOf (12 * 1 + 2) = some 14 ∧
    ((upon_ (receiver .active)).tile 14).job = some 9 ∧ receiving.run = some { run9 2 with recvs := [open2] } ∧
    open2.entry = (flitTo n 0x12).word / 1024 ∧ (upon_ (receiver .active)).now ≤ open2.delivery := by decide +kernel
theorem wit_FlitsReceived_misaddressed : (addrParts (flitTo 1 0x92).dest).1 ≠ (upon_ (receiver .active)).moduleNumber := by decide +kernel
theorem wit_FlitsReceived_sync : (addrParts (flitTo 7 0x1F).dest) = (0, 1, 15) ∧ (upon_ (receiver .active)).job 9 = some receiving ∧
    leAt (flitTo 7 0x1F).payload 0 2 = 0 ∧ 0 < leAt ((upon_ (receiver .active)).jobSection receiving 7) 0 4 ∧
    (flitTo 2 (hubAddr 0)).dest = hubAddr (upon_ (receiver .active)).moduleNumber ∧ bitsOf (flitTo 3 0x7F).dest 6 0 = 127 ∧
    bitsOf (flitTo 3 0x12).dest 6 0 ≠ 127 ∧ bitsOf (flitTo 5 0x7F).dest 6 0 = 127 ∧ ((now_ (receiver .active)).link 7).up = true := by
  decide +kernel

/-! ### Witnesses: issues -/

/-- What an issue command issues, where it meets every condition of `Issues`. -/
def issuedIn (i : Instr) (s : State) : Option (State × Nat × Arr × Nat × IssueRec) :=
  match issueOf i with
  | some (dt, tile, a, cls, r) =>
    let u := s.after dt
    if descOk tile cls r.desc = true ∧ recOk r = true ∧ rangesOk cls r.desc = true ∧ u.issuing tile a cls r = true ∧
        (cls ≤ 0x06 → u.arrayFenced tile a = false) ∧
        (cls = 0x50 ∨ cls = 0x51 ∨ cls = 0x60 → (u.transferKind tile (cls == 0x60) r.desc).isSome = true) then some (u, tile, a, cls, r)
    else none
  | none => none

/-- A row issues, and the rest of a clause's hypotheses holds. -/
def Issued (i : Instr) (s : State) (P : State → Nat → Nat → BitVec 48 → Prop) : Prop :=
  ∃ u tile a cls r, Issues i s u tile a cls r ∧ P u tile cls r.desc

theorem issued {i : Instr} {s : State} {P : State → Nat → Nat → BitVec 48 → Prop} [∀ u n m d, Decidable (P u n m d)]
    (h : (issuedIn i s).any (fun q => decide (P q.1 q.2.1 q.2.2.2.1 q.2.2.2.2.desc)) = true) : Issued i s P := by
  unfold issuedIn at h
  cases hr : issueOf i with
  | none => simp [hr] at h
  | some q =>
    obtain ⟨dt, tile, a, cls, r⟩ := q
    simp only [hr] at h
    split at h
    · rename_i g
      simp only [Option.any_some, decide_eq_true_eq] at h
      exact ⟨_, tile, a, cls, r, ⟨dt, hr, rfl, g.1, g.2.1, g.2.2.1, g.2.2.2.1, g.2.2.2.2.1, g.2.2.2.2.2⟩, h⟩
    · simp at h

/-- A descriptor from values at bit places. -/
def desc (l : List (Nat × Nat)) : BitVec 48 := BitVec.ofNat 48 (l.foldl (fun a e => a + e.2 * 2 ^ e.1) 0)
/-- Record 7 of a program, with a descriptor; it checks nothing and sets entry 255. -/
def record (l : List (Nat × Nat)) : IssueRec :=
  { index := 7, checkA := false, checkB := false, setValid := true, releaseA := true, releaseB := false, entryA := 0, entryB := 0,
    setEntry := 255, desc := desc l }
/-- Transfer entries: 0 sends and 1 receives plainly, 2 sends compacting, 3 receives scattered; 8 units, for or from address
0x12, by link 7. -/
def transfers : List Byte :=
  table 16 [(0, 4)] ++ leBytes 32 (7 * 2 ^ 233 + 0x12 * 2 ^ 213 + 8 * 2 ^ 187)
    ++ leBytes 32 (2 ^ 243 + 2 ^ 242 + 7 * 2 ^ 233 + 0x12 * 2 ^ 213 + 8 * 2 ^ 187)
    ++ leBytes 32 (2 * 2 ^ 243 + 2 ^ 239 + 7 * 2 ^ 233 + 0x12 * 2 ^ 213 + 2 ^ 187 + 4 * 2 ^ 167)
    ++ leBytes 32 (3 * 2 ^ 243 + 2 ^ 242 + 2 * 2 ^ 239 + 7 * 2 ^ 233 + 0x12 * 2 ^ 213 + 8 * 2 ^ 187)
/-- Link entry 7, with a delivery bound of 500, before the same. -/
def lathTransfers : List Byte := table 16 [(0, 4), (4, 1)] ++ leBytes 16 (7 * 2 ^ 122 + 500 * 2 ^ 64) ++ transfers.drop 16
/-- SCREED_SLOTS of that bucket, with one send of tile 14. -/
def sends : List Byte :=
  table 16 [(0, 1), (4, 1)] ++ screed.2.drop 16 ++ leBytes 32 (14 * 2 ^ 250 + 3 * 2 ^ 220 + 2048 * 2 ^ 184)
/-- A job in its step on tile 14, whose partition has a window on die 1 in both tiers and every grant. -/
def issuer : State :=
  { live (image 1 4 0 [] [14] [syncs [2 ^ 32 + 100], (3, transfers), (4, lathTransfers), (5, sends)])
      { job0 with binding := [(14, 14)], run := some (run9 2) } with
      now := 32, links := [(7, { state := .active, width := 3, timeClass := .common })], tiles := [(14, { job := some 9 })],
      parts := [(0, { state := .open_, windows := [(2, { base := 0, len := 1 }), (3, { base := 0, len := 1 })], grant1 := 2 ^ 64 - 1,
                      grant2 := 2 ^ 64 - 1, grantDie := 2 ^ 64 - 1, grantLath := 2 ^ 64 - 1 })] }
/-- The 128 bits of a record at a cycle offset. -/
def wordOf (off unit cls : Nat) (r : IssueRec) : Nat :=
  off * 2 ^ 96 + unit * 2 ^ 92 + cls * 2 ^ 84 + b2n r.checkA * 2 ^ 83 + b2n r.checkB * 2 ^ 82 + b2n r.setValid * 2 ^ 81
    + b2n r.releaseA * 2 ^ 80 + b2n r.releaseB * 2 ^ 79 + r.entryA * 2 ^ 64 + r.entryB * 2 ^ 56 + r.setEntry * 2 ^ 48 + r.desc.toNat
/-- `issuer`, whose program has these records from record 7 on. -/
def programmed (ws : List Nat) : State :=
  { issuer with images := issuer.images.map (fun i => { i with sections := i.sections.map (fun x =>
      if x.type == 1 then { x with data := (List.replicate 7 0 ++ ws).flatMap (leBytes 16) } else x) }) }
/-- `issuer`, whose program holds an issue command's record at this cycle. -/
def issuerFor (i : Instr) : State :=
  match issueOf i with
  | some (_, _, a, cls, r) => programmed [wordOf 32 (unitOf a cls) cls r]
  | none => issuer
/-- A row issues there. -/
abbrev IssuedOn (i : Instr) (P : State → Nat → Nat → BitVec 48 → Prop) : Prop := Issued i (issuerFor i) P

/-- One issue of every row: its class is its own, its operands lie at the beginning or the end of their ranges. -/
def issueRows : List Instr :=
  let v (n : Nat) : IssueRec := record [(40, n), (34, 63), (28, 62), (22, 61)]
  let f (n p : Nat) : IssueRec := record [(40, n), (34, 60), (28, 60), (22, 56), (16, p)]
  [.arrayWeightLoad 0 14 .hawk (record [(24, 9)]), .arrayWeightLoadExpand 0 14 .float (record [(24, 10)]),
    .activationPlain 0 14 .hawk (record [(6, 2)]), .activationBlockScaled 0 14 .float (record [(6, 9)]),
    .drainRequantise 0 14 .hawk (record [(17, 1)]), .drainFp32Hook 0 14 .float (record [(1, 12)]), .skimRow 0 14 (record [(14, 2)])]
  ++ [.fadd 0 14 (v 0x00), .fsub 0 14 (v 0x01), .fmul 0 14 (v 0x02), .ffma 0 14 (v 0x03), .fmax 0 14 (v 0x04), .fmin 0 14 (v 0x05),
    .fcmp 0 14 (record [(40, 0x06), (34, 7), (0, 3)]), .fsel 0 14 (v 0x07), .cvtfs 0 14 (v 0x08), .cvtsf 0 14 (v 0x09), .fneg 0 14 (v 0x0A),
    .fabs 0 14 (v 0x0B), .iadd 0 14 (v 0x10), .isub 0 14 (v 0x11), .imullo 0 14 (v 0x12), .imulhu 0 14 (v 0x13), .iand 0 14 (v 0x14),
    .ior 0 14 (v 0x15), .ixor 0 14 (v 0x16), .ishl 0 14 (v 0x17), .ishrl 0 14 (v 0x18), .ishra 0 14 (v 0x19), .irotl 0 14 (v 0x1A),
    .imax 0 14 (v 0x1B), .imin 0 14 (v 0x1C), .icmp 0 14 (record [(40, 0x1D), (34, 1)]), .isel 0 14 (v 0x1E), .bcast 0 14 (v 0x1F)]
  ++ [.fdiv 0 14 (v 0x20), .fsqrt 0 14 (v 0x21), .frsqrt 0 14 (v 0x22), .fexp 0 14 (v 0x28), .flog 0 14 (v 0x29), .ftanh 0 14 (v 0x2A),
    .fsig 0 14 (v 0x2B), .ferf 0 14 (v 0x2C), .fexp2 0 14 (v 0x2D), .flog2 0 14 (v 0x2E), .rfsum 0 14 (v 0x30), .rfmax 0 14 (v 0x31),
    .rfmin 0 14 (v 0x32), .risum 0 14 (v 0x33), .rargmax 0 14 (v 0x34)]
  ++ [.finit 0 14 (f 0x40 0), .fstat 0 14 (f 0x41 1), .fhist 0 14 (f 0x42 0), .fselect 0 14 (f 0x43 0), .fgrad 0 14 (f 0x44 1),
    .fsave 0 14 (f 0x45 3), .fmerge 0 14 (f 0x46 3), .fclose 0 14 (f 0x47 2)]
  ++ [.vectorRegisterLoad 0 14 (record [(28, 786416), (23, 15)]), .vectorRegisterStore 0 14 (record [(22, 1)]),
    .predicateLoad 0 14 (record [(18, 1), (12, 7)]), .predicateStore 0 14 (record [(22, 1), (18, 1), (12, 1)]),
    .columnMaskLoad 0 14 (record [(18, 3)]), .skimActivationEntryLoad 0 14 (record [(18, 4), (12, 31), (8, 2)]),
    .skimControlWordLoad 0 14 (record [(18, 5)]), .memoryBaseLoad 0 14 (record [(18, 6), (12, 15)]), .zeroFill 0 14 (record [(22, 1), (18, 7)]),
    .turnRead 0 14 (record [(4, 2), (8, 16)])]
  ++ [.hbmReadBeside 0 14 (record []), .hbmReadOther 0 14 (record []), .hbmWrite 0 14 (record [(5, 1)]), .lpddrAccessBeside 0 14 (record []),
    .lpddrAccessOther 0 14 (record [(5, 1)]), .put 0 14 (record [(5, 1), (0, 1)]), .take 0 14 (record [(0, 4)])]
  ++ [.dieToDieSend 0 14 (record []), .dieToDieSendVia 0 14 (record []), .dieToDieReceive 0 14 false (record [(35, 1)]),
    .dieToDieReceive 0 14 true (record [(35, 1)]), .lathSend 0 14 (record []), .compactingSend 0 14 (record [(35, 2)]),
    .lathReceive 0 14 (record [(35, 1)]), .scatterReceive 0 14 (record [(35, 3)]), .screedPart 0 14 .die (record []),
    .screedCensus 0 14 .otherDie (record [(12, 1)]), .screedSelect 0 14 .otherModule (record [(12, 2)]),
    .syncArriveSameDie 0 14 (record [(20, 1)]), .syncArriveOtherDie 0 14 (record [(20, 1)]),
    .syncArriveOtherModule 0 14 (record [(20, 1), (7, 1), (1, 7)])]
theorem wit_IssueSchedules : ∀ i, i ∈ issueRows → IssuedOn i (fun _ _ _ _ => True) := by
  have h : issueRows.all (fun i => (issuedIn i (issuerFor i)).any (fun _ => decide True)) = true := by decide +kernel
  exact fun i hi => issued (List.all_eq_true.mp h i hi)
theorem wit_IssueSchedules_stops : issueOf (.fadd 0 14 (record [(7, 1)])) = some (0, 14, .hawk, 0x20, record [(7, 1)]) ∧
    descOk 14 0x20 (desc [(7, 1)]) = false ∧
    issueOf (.vectorRegisterLoad 0 14 (record [(28, 786417), (23, 15)])) = some (0, 14, .hawk, 0x30, record [(28, 786417), (23, 15)]) ∧
    descOk 14 0x30 (desc [(28, 786417), (23, 15)]) = true ∧ recOk (record [(28, 786417), (23, 15)]) = true ∧ rangesOk 0x30 (desc [(28, 786417), (23, 15)]) = false ∧
    descOk 14 0x20 (desc []) = true ∧ rangesOk 0x20 (desc []) = true ∧ (now_ idle).issuing 14 .hawk 0x20 (record []) = false :=
  ⟨rfl, by decide +kernel, rfl, by decide +kernel, by decide +kernel, by decide +kernel, by decide +kernel, by decide +kernel, by decide +kernel⟩
/-- A vector row's descriptor names its own function. -/
def ownFunction (n : Nat × Instr) : Bool := (issueOf n.2).any (fun q => fld q.2.2.2.2.desc 47 40 == n.1)
theorem wit_VectorIssues_forms : ∀ n, n ∈ [(0x00, Instr.fadd 0 14 (record [(40, 0x00)])), (0x1F, .bcast 0 14 (record [(40, 0x1F)])),
      (0x22, .frsqrt 0 14 (record [(40, 0x22)])), (0x2E, .flog2 0 14 (record [(40, 0x2E)])), (0x34, .rargmax 0 14 (record [(40, 0x34)])),
      (0x46, .fmerge 0 14 (record [(40, 0x46), (16, 3)]))] →
    ownFunction n = true ∧ IssuedOn n.2 (fun _ _ cls d => vectorOk cls d = true) := by
  intro n h
  simp only [List.mem_cons, List.not_mem_nil, or_false] at h
  obtain rfl | rfl | rfl | rfl | rfl | rfl := h
  all_goals exact ⟨by decide +kernel, issued (by decide +kernel)⟩
theorem wit_ArrayIssues_repair : ∃ bad lane, bad = 2 ^ 32 - 1 ∧ lane = some 31 ∧ 480 ≤ (goodColumns bad).length ∧ (∀ b, lane = some b → b < 32) ∧
    (List.replicate 32 (1 : Int)).length = 32 :=
  ⟨_, _, rfl, rfl, by decide +kernel, fun b h => by injection h with h; omega, rfl⟩
theorem wit_ArrayIssues :
    IssuedOn (.arrayWeightLoad 0 14 .hawk (record [(24, 9)])) (fun _ _ cls d => cls = 0x01 ∧ (fmtOf (fld d 27 24)).isSome = true) ∧
    IssuedOn (.arrayWeightLoadExpand 0 14 .float (record [(24, 10)])) (fun _ _ cls d => cls = 0x02 ∧ (fmtOf (fld d 27 24)).isSome = true) ∧
    IssuedOn (.activationPlain 0 14 .hawk (record [(15, 1), (6, 2)])) (fun _ _ cls d => cls = 0x03 ∧ fld d 15 15 = 1 ∧
      (fmtOf (fld d 9 6)).isSome = true) ∧
    IssuedOn (.activationBlockScaled 0 14 .float (record [(6, 9)])) (fun _ _ cls d => cls = 0x04 ∧ fld d 15 15 = 0) ∧
    IssuedOn (.drainRequantise 0 14 .hawk (record [(17, 1)])) (fun _ _ cls _ => cls = 0x05) ∧
    IssuedOn (.drainFp32Hook 0 14 .float (record [(1, 12)])) (fun _ _ cls _ => cls = 0x06) ∧
    IssuedOn (.skimRow 0 14 (record [(18, 1), (14, 2)])) (fun _ _ cls _ => cls = 0x10) :=
  ⟨issued (by decide +kernel), issued (by decide +kernel), issued (by decide +kernel), issued (by decide +kernel), issued (by decide +kernel),
    issued (by decide +kernel), issued (by decide +kernel)⟩
theorem wit_VectorIssues :
    IssuedOn (.fcmp 0 14 (record [(40, 0x06), (34, 7)])) (fun _ _ cls d => cls = 0x20 ∧ fld d 47 40 = 0x06) ∧
    IssuedOn (.icmp 0 14 (record [(40, 0x1D), (34, 1)])) (fun _ _ cls d => cls = 0x20 ∧ fld d 47 40 = 0x1D) ∧
    IssuedOn (.rargmax 0 14 (record [(40, 0x34)])) (fun _ _ cls _ => cls = 0x23) ∧
    IssuedOn (.bcast 0 14 (record [(40, 0x1F)])) (fun _ _ cls d => cls = 0x20 ∧ fld d 47 40 ≠ 0x06 ∧ fld d 47 40 ≠ 0x1D) ∧
    IssuedOn (.fsqrt 0 14 (record [(40, 0x21)])) (fun _ _ cls _ => cls = 0x21) ∧
    IssuedOn (.flog2 0 14 (record [(40, 0x2E)])) (fun _ _ cls _ => cls = 0x22) ∧
    IssuedOn (.fclose 0 14 (record [(40, 0x47), (16, 2)])) (fun _ _ cls _ => cls = 0x24) :=
  ⟨issued (by decide +kernel), issued (by decide +kernel), issued (by decide +kernel), issued (by decide +kernel), issued (by decide +kernel),
    issued (by decide +kernel), issued (by decide +kernel)⟩
/-- The conditions of `Performed` for an access of `issuer`'s job whose base register is 0. -/
def reaches (u : State) (cls off len tier : Nat) : Prop :=
  tier < 2 ∧ (u.part 0).pooled = false ∧ (u.part 0).windowAddr 1 (tier == 1) off len = some off ∧
  slotsGranted ((u.part 0).grant (tier == 1)) (tier == 1) (u.now + memArrival cls) (slotCount (tier == 1) len) = true
theorem wit_MemoryIssues_scratch :
    IssuedOn (.predicateLoad 0 14 (record [(18, 1), (12, 7)])) (fun _ _ cls d => cls = 0x30 ∧ fld d 22 22 = 0) ∧
    IssuedOn (.zeroFill 0 14 (record [(22, 1), (18, 7)])) (fun _ _ cls d => cls = 0x30 ∧ fld d 22 22 = 1) ∧
    IssuedOn (.turnRead 0 14 (record [(4, 2), (8, 16)])) (fun _ _ cls d => cls = 0x31 ∧ (fmtOf (fld d 7 4)).isSome = true) :=
  ⟨issued (by decide +kernel), issued (by decide +kernel), issued (by decide +kernel)⟩
/-- Tile 14's job in `issuer`. -/
def issuing9 : Job := { job0 with binding := [(14, 14)], run := some (run9 2) }
theorem performed_of {u : State} {cls off len tier : Nat} (h1 : (u.tile 14).job = some 9) (h2 : u.job 9 = some issuing9)
    (h : reaches u cls off len tier) : Performed u 14 cls off len tier issuing9 off := ⟨⟨9, h1, h2⟩, h.1, h.2.1, h.2.2.1, h.2.2.2⟩
theorem wit_MemoryIssues_access :
    IssuedOn (.hbmReadBeside 0 14 (record [(6, 31)])) (fun _ _ cls d => 0x40 ≤ cls ∧ cls ≤ 0x44 ∧ fld d 5 5 = 0 ∧ fld d 3 0 = 0) ∧
    Performed (now_ (issuerFor (.hbmReadBeside 0 14 (record [(6, 31)])))) 14 0x40 0 1024 0 issuing9 0 ∧
    IssuedOn (.hbmWrite 0 14 (record [(5, 1), (0, 1)])) (fun _ _ cls d => 0x40 ≤ cls ∧ cls ≤ 0x44 ∧ fld d 5 5 = 1 ∧ fld d 3 0 = 1) ∧
    Performed (now_ (issuerFor (.hbmWrite 0 14 (record [(5, 1), (0, 1)])))) 14 0x42 0 (convMemBytes 1 false) 0 issuing9 0 :=
  ⟨issued (by decide +kernel), performed_of (by decide +kernel) (by decide +kernel) ⟨by decide, by decide +kernel, by decide +kernel, by decide +kernel⟩, issued (by decide +kernel),
    performed_of (by decide +kernel) (by decide +kernel) ⟨by decide, by decide +kernel, by decide +kernel, by decide +kernel⟩⟩
theorem wit_MemoryIssues_stash :
    IssuedOn (.put 0 14 (record [(5, 1), (0, 1)])) (fun _ _ cls d => cls = 0x45 ∧ fld d 5 5 = 1) ∧
    IssuedOn (.take 0 14 (record [(0, 1)])) (fun _ _ cls d => cls = 0x45 ∧ fld d 5 5 = 0) ∧
    Performed (now_ (issuerFor (.put 0 14 (record [(5, 1), (0, 1)])))) 14 0x45 0 (segBytes (stashForm 1).1) 0 issuing9 0 :=
  ⟨issued (by decide +kernel), issued (by decide +kernel), performed_of (by decide +kernel) (by decide +kernel) ⟨by decide, by decide +kernel, by decide +kernel, by decide +kernel⟩⟩
theorem wit_MemoryIssues_miss :
    Issued (.lpddrAccessBeside 0 14 (record [])) { issuerFor (.lpddrAccessBeside 0 14 (record [])) with parts := [] } (fun u tile cls d => 0x40 ≤ cls ∧ cls ≤ 0x44 ∧ fld d 5 5 = 0 ∧
      (u.tile tile).job = some 9 ∧ u.job 9 = some issuing9 ∧
      (u.part issuing9.part).windowAddr (dieOf tile) false (windowOffset (u.tile tile) d) 32 = none) := issued (by decide +kernel)
/-- The same with a second window, in tier 2 alone, and no grant of tier 1's slots. -/
def ungranted (i : Instr) : State :=
  { issuerFor i with parts := [(0, { state := .open_, windows := [(2, { base := 0, len := 1 })], grant1 := 0, grant2 := 2 ^ 64 - 1 })] }
theorem wit_MemoryIssues_misses : ∀ e, e ∈ [(0x40, Instr.hbmReadBeside 0 14 (record [])), (0x42, .hbmWrite 0 14 (record [(5, 1), (0, 1)])),
      (0x45, .put 0 14 (record [(5, 1), (0, 1)])), (0x45, .take 0 14 (record [(0, 1)]))] →
    Issued e.2 { issuerFor e.2 with parts := [] } (fun u tile cls d => cls = e.1 ∧ (u.tile tile).job = some 9 ∧ u.job 9 = some issuing9 ∧
      (u.part issuing9.part).windowAddr (dieOf tile) false (windowOffset (u.tile tile) d) 1024 = none) ∧
    Issued e.2 (ungranted e.2) (fun u tile cls d => cls = e.1 ∧ (u.tile tile).job = some 9 ∧ u.job 9 = some issuing9 ∧
      ((u.part issuing9.part).windowAddr (dieOf tile) false (windowOffset (u.tile tile) d) 1024).isSome = true ∧
      slotsGranted ((u.part issuing9.part).grant false) false (u.now + memArrival cls) (slotCount false 1024) = false) := by
  intro e h
  simp only [List.mem_cons, List.not_mem_nil, or_false] at h
  obtain rfl | rfl | rfl | rfl := h
  all_goals exact ⟨issued (by decide +kernel), issued (by decide +kernel)⟩
theorem wit_MemoryIssues_live : issuing9.live = some (run9 2) := rfl
/-- `sends` in another mode, by link 7. -/
def sendsIn (mode : Nat) : List Byte :=
  table 16 [(0, 1), (4, 1)] ++ screed.2.drop 16
    ++ leBytes 32 (14 * 2 ^ 250 + 3 * 2 ^ 220 + mode * 2 ^ 218 + 2048 * 2 ^ 184 + 7 * 2 ^ 98)
/-- `issuerFor` with it. -/
def sender (mode : Nat) (i : Instr) : State :=
  { issuerFor i with images := (issuerFor i).images.map (fun x => { x with sections := x.sections.map (fun y =>
      if y.type == 5 then { y with data := sendsIn mode } else y) }) }
theorem wit_TransferIssues_parts : ∀ e, e ∈ [(0x70, Reach.die), (0x71, .otherDie), (0x72, .otherModule)] → ∀ m, m ∈ [0, 1, 2, 3] →
    Issued (.screedPart 0 14 e.2 (record [])) (sender m (.screedPart 0 14 e.2 (record []))) (fun u tile cls d =>
      cls = e.1 ∧ fld d 13 12 = 0 ∧ (u.sendEntry issuing9 tile (fld d 27 14)).map (fun x => (x.mode, x.link)) = some (m, 7) ∧
      (u.bucketEntry issuing9 3).isSome = true ∧ (u.part issuing9.part).pooled = false ∧ (u.part issuing9.part).grantLath = 2 ^ 64 - 1 ∧
      (u.link 7).width = 3) := by
  intro e h m k
  simp only [List.mem_cons, List.not_mem_nil, or_false] at h k
  obtain rfl | rfl | rfl := h <;> obtain rfl | rfl | rfl | rfl := k
  all_goals exact issued (by decide +kernel)
theorem wit_TransferIssues :
    (∀ i, i ∈ issueRows → (now_ (issuerFor i)).job 9 = some issuing9 ∧ ((now_ (issuerFor i)).tile 14).job = some 9) ∧
    (∀ n, n ∈ [(0x50, Instr.dieToDieSend 0 14 (record [])), (0x51, .dieToDieSendVia 0 14 (record []))] → IssuedOn n.2 (fun u tile cls d =>
      cls = n.1 ∧ ((u.transfer issuing9 false false d).any (fun e => u.hopUp (dieOf tile) (if cls = 0x51 then e.via else e.link)
        && u.hopUp (if cls = 0x51 then e.via else e.link) e.link)) = true ∧
      (recChecks (record [])).any (fun k => (u.tile tile).entry k != .ready) = false ∧
      (u.part issuing9.part).pooled = false ∧ (u.part issuing9.part).grantDie = 2 ^ 64 - 1)) ∧
    (∀ via, via ∈ [false, true] → IssuedOn (.dieToDieReceive 0 14 via (record [(35, 1)])) (fun u _ cls d =>
      cls = (if via then 0x51 else 0x50) ∧ u.transfer issuing9 false false d = none ∧ (u.transfer issuing9 false true d).isSome = true)) ∧
    (∀ n, n ∈ [(0, Instr.lathSend 0 14 (record [])), (1, .compactingSend 0 14 (record [(35, 2)]))] → IssuedOn n.2 (fun u tile cls d =>
      cls = 0x60 ∧ (u.transfer issuing9 true false d).map (fun e => e.mode) = some n.1 ∧ (u.part issuing9.part).grantLath = 2 ^ 64 - 1 ∧
      (u.link 7).width = 3 ∧ issuing9.barred = [] ∧ (recChecks (record [])).any (fun k => (u.tile tile).entry k != .ready) = false)) ∧
    (∀ n, n ∈ [(1, Instr.screedCensus 0 14 .otherDie (record [(12, 1)])), (2, .screedSelect 0 14 .die (record [(12, 2)]))] →
      IssuedOn n.2 (fun u tile cls d => 0x70 ≤ cls ∧ cls ≤ 0x72 ∧ (u.sendEntry issuing9 tile (fld d 27 14)).isSome = true ∧ fld d 13 12 = n.1 ∧
        (u.part issuing9.part).pooled = false)) ∧
    IssuedOn (.syncArriveSameDie 0 14 (record [(20, 1)])) (fun _ _ cls _ => cls = 0x80) ∧
    IssuedOn (.syncArriveOtherDie 0 14 (record [(20, 1)])) (fun _ _ cls _ => cls = 0x81) ∧
    IssuedOn (.syncArriveOtherModule 0 14 (record [(20, 1), (7, 1), (1, 7)])) (fun u _ cls _ => cls = 0x82 ∧
      (u.part issuing9.part).grantLath = 2 ^ 64 - 1 ∧ fld (record [(20, 1), (7, 1), (1, 7)]).desc 6 1 = 7 ∧ (u.link 7).width = 3 ∧
      issuing9.barred = []) := by
  refine ⟨by decide +kernel, ?_, ?_, ?_, ?_, issued (by decide +kernel), issued (by decide +kernel), issued (by decide +kernel)⟩
  all_goals
    intro n h
    simp only [List.mem_cons, List.not_mem_nil, or_false] at h
    obtain rfl | rfl := h
    all_goals exact issued (by decide +kernel)
/-- A micro-operation of issue 3 on tile 14, due at a cycle. -/
def micro (due : Nat) (act : Act) : Op :=
  { due := due, phase := 0, seq := 0, id := 3, tile := 14, job := 9, unit := 3, record := 7, issued := 30, act := act }
/-- `issuer` with micro-operations in flight, entry 255 PENDING. -/
def flying (l : List Op) : State := { issuer with inflight := l, tiles := [(14, { job := some 9, score := [(255, .pending)] })] }
theorem wit_Completions_one : ∀ e, e ∈ [none, some 255] → (now_ (flying [micro 36 (.complete e)])).acts = [] ∧
    (now_ (flying [micro 36 (.complete e)])).inflight = [micro 36 (.complete e)] ∧ (now_ (flying [micro 36 (.complete e)])).now ≤ 36 ∧
    ∀ n, n ∈ e → ((now_ (flying [micro 36 (.complete e)])).tile 14).entry n = .pending := by decide +kernel
theorem wit_Completions_two : ∀ a, a ∈ [Act.setLanes 0 [], .setPred 1 [], .write 0 [some 1], .setBase 2 5, .release [255, 0], .promise 0,
      .addRow .hawk 3 false false (List.replicate 480 1)] →
    (now_ (flying [micro 34 a, micro 35 (.complete none)])).inflight = [micro 34 a, micro 35 (.complete none)] ∧
    (now_ (flying [micro 34 a, micro 35 (.complete none)])).acts = [] ∧ (now_ (flying [micro 34 a, micro 35 (.complete none)])).now ≤ 34 := by
  decide +kernel
/-- A class 0x04 issue due, with the class 0x03 issue after it already in its row. -/
def overtaken : State :=
  { flying [micro 34 (.addRow .float 3 true true (List.replicate 480 1)), micro 35 (.complete none)] with
    tiles := [(14, { job := some 9, score := [(255, .pending)],
                     float := { last := some ⟨3, 31, List.replicate 480 0, false, List.replicate 480 2⟩ } })] }
theorem wit_Completions_overtaken :
    (now_ overtaken).inflight = [micro 34 (.addRow .float 3 true true (List.replicate 480 1)), micro 35 (.complete none)] ∧
    (now_ overtaken).acts = [] ∧ (now_ overtaken).now ≤ 34 ∧
    (((now_ overtaken).tile 14).arr .float).last = some ⟨3, 31, List.replicate 480 0, false, List.replicate 480 2⟩ := by decide +kernel
/-- A receive of that issue, complete before its delivery. -/
def full3 : Recv := { id := 3, job := 9, unit := 7, entry := 1, tile := 14, address := 0, delivery := 40, units := 1, got := [(0, [])] }
/-- Its module. -/
def delivering : State :=
  { flying [micro 40 (.deliver 3 (some 255))] with jobs := [(9, { issuing9 with run := some { run9 2 with recvs := [full3] } })] }
theorem wit_Completions_delivery : (now_ delivering).acts = [] ∧ (now_ delivering).inflight = [micro 40 (.deliver 3 (some 255))] ∧
    (now_ delivering).now ≤ 40 ∧ (now_ delivering).job 9 = some { issuing9 with run := some { run9 2 with recvs := [full3] } } ∧
    ((now_ delivering).tile 14).entry 255 = .pending ∧ full3.complete = true := by decide +kernel
/-- A repeat of two iterations, 64 cycles apart, of one FADD. -/
def twice : List (BitVec 128) :=
  [BitVec.ofNat 128 (32 * 2 ^ 96 + 15 * 2 ^ 92 + 2 * 2 ^ 64 + 64 * 2 ^ 20 + 2 ^ 8), BitVec.ofNat 128 (3 * 2 ^ 92 + 0x20 * 2 ^ 84)]
theorem wit_Completions_repeat : ∃ l, l = repeatList 7 (spanned twice) ∧ l.length = 2 ∧ unrolledOk 14 l = true ∧ unrolledIn l = true ∧
    (now_ (programmed (twice.map (fun w => w.toNat)))).repeating 14 7 (spanned twice) = true ∧
    (now_ (programmed (twice.map (fun w => w.toNat)))).acts = [] :=
  ⟨_, rfl, by decide +kernel, by decide +kernel, by decide +kernel, by decide +kernel, by decide +kernel⟩

/-! ### Witnesses: the whole machine -/

theorem wit_MemoryStaysCanonical : Canonical idle ∧ step idle = .next idle :=
  ⟨⟨rfl, by decide, by decide, by decide, by decide⟩, rfl⟩
theorem wit_FusesStay : (∃ t, step { idle with pending := [.feedRemoved 0] } = .next t) ∧
    SourcesBarred { idle with pending := [.feedRemoved 0] } := ⟨⟨_, rfl⟩, by unfold SourcesBarred; decide⟩

end Sys2Proof.Tests
end

section
/-!
PROOF. The standing of a module, which all but a few operations keep: the definition, the operations over the state, and issues.
-/
namespace Sys2Proof.Machine

/-- What only a start, the time commands and the queue itself change of a module: what its fuses hold (R353, R432), the commands that
wait, and its Plumb state, time source and barred sources (R31 to R38). -/
structure Standing where
  variantB : Bool
  serial : Nat
  idHash : Nat
  pending : List Instr
  time : PlumbState
  source : Nat
  barred : List Nat

/-- The standing of a module. -/
def State.standing (s : State) : Standing :=
  { variantB := s.variantB, serial := s.serial, idHash := s.idHash, pending := s.pending, time := s.plumb.state,
    source := s.plumb.source, barred := s.plumb.barred }

theorem State.standing_time (s : State) : s.standing.time = s.plumb.state := rfl
theorem State.standing_source (s : State) : s.standing.source = s.plumb.source := rfl

set_option autoImplicit true in
/-- An update of other fields keeps the standing, whatever their new values (which are bound by their fields' names). -/
@[simp] theorem standing_update (s : State) :
    State.standing { s with
      now, draws, issues, opSeq, cmdSeq, inflight, acts, tickAt, taken, tiles, tier1, tier2, hub, ctls, links, routes, parts,
      images, jobs, lostDies, failed, lossAt, number, firmware, firmwareDigest, quiescing, quiesce, inbox, messages, wins, cmds,
      passed, regs, conns, connSeq, requests, budgets, admissions, store, start, power, health, drive, catalogue, sentParts,
      switches, switchLog, log, kept, recordRoom, clearing, fills } = s.standing := rfl

@[simp] theorem State.standing_ite (p : Prop) [Decidable p] (s t : State) :
    (if p then s else t).standing = if p then s.standing else t.standing := apply_ite ..

/-- A fold keeps what each of its steps keeps. -/
theorem foldl_keeps {α β γ : Type} (φ : α → γ) {f : α → β → α} (h : ∀ a b, φ (f a b) = φ a) (l : List β) (a : α) :
    φ (l.foldl f a) = φ a := by
  induction l generalizing a with
  | nil => rfl
  | cons b l ih => rw [List.foldl_cons, ih, h]

@[simp] theorem foldl_standing {β : Type} {f : State → β → State} (h : ∀ s b, (f s b).standing = s.standing) (l : List β) (s : State) :
    (l.foldl f s).standing = s.standing :=
  foldl_keeps State.standing h l s

/-- The work of an issue keeps the standing. -/
theorem IssueFrame.standing {lk : Bool} {tile : Nat} {s t : State} (h : IssueFrame lk tile s t) : t.standing = s.standing := by
  rw [h.eq]; rfl

/-! ### Tiles, jobs, links, memories and faults -/

@[simp] theorem State.setTile_standing (s : State) (i : Nat) (t : Tile) : (s.setTile i t).standing = s.standing := by
  simp [State.setTile]

@[simp] theorem State.updTile_standing (s : State) (i : Nat) (f : Tile → Tile) : (s.updTile i f).standing = s.standing := by
  simp [State.updTile]

@[simp] theorem State.setJob_standing (s : State) (j : Nat) (x : Job) : (s.setJob j x).standing = s.standing := by
  simp [State.setJob]

@[simp] theorem State.updJob_standing (s : State) (j : Nat) (f : Job → Job) : (s.updJob j f).standing = s.standing := by
  unfold State.updJob
  split <;> simp

@[simp] theorem State.updRun_standing (s : State) (j : Nat) (f : StepRun → StepRun) : (s.updRun j f).standing = s.standing := by
  simp [State.updRun]

@[simp] theorem State.updLink_standing (s : State) (l : Nat) (f : Link → Link) : (s.updLink l f).standing = s.standing := by
  simp [State.updLink]

@[simp] theorem State.updCtl_standing (s : State) (c : Nat) (f : Ctl → Ctl) : (s.updCtl c f).standing = s.standing := by
  simp [State.updCtl]

@[simp] theorem State.updPart_standing (s : State) (p : Nat) (f : Part → Part) : (s.updPart p f).standing = s.standing := by
  simp [State.updPart]

@[simp] theorem State.draw_standing (s : State) : s.draw.2.standing = s.standing := by
  simp [State.draw]

@[simp] theorem State.enqueue_standing (s : State) (o : Op) : (s.enqueue o).standing = s.standing := by
  simp [State.enqueue]

@[simp] theorem State.emit_standing (s : State) (o : Op) (due phase : Nat) (act : Act) :
    (s.emit o due phase act).standing = s.standing := by
  simp [State.emit]

@[simp] theorem State.setOpCtl_standing (s : State) (id c : Nat) : (s.setOpCtl id c).standing = s.standing := by
  simp [State.setOpCtl]

@[simp] theorem State.raise_standing (s : State) (jid code stamp : Nat) (w : Where) :
    (s.raise jid code stamp w).standing = s.standing := by
  unfold State.raise
  dsimp only
  repeat' split
  all_goals simp

@[simp] theorem State.writeDie_standing (s : State) (die : Nat) (tier2 : Bool) (keys : List Byte) (a : Nat) (bs : List Byte) :
    (s.writeDie die tier2 keys a bs).standing = s.standing := by
  simp [State.writeDie]

@[simp] theorem State.trace_standing (s : State) (jid level die tile unit index kind : Nat) (shown : List Nat) :
    (s.trace jid level die tile unit index kind shown).standing = s.standing := by
  unfold State.trace
  dsimp only
  repeat' split
  all_goals simp

@[simp] theorem State.access_standing (s : State) (o : Op) (p : Part) (pid res grant : Nat) (tier2 : Bool) (arrival n : Nat) :
    (s.access o p pid res grant tier2 arrival n).standing = s.standing := by
  simp [State.access]

@[simp] theorem countFound_standing (s : State) (e : MemError) : (countFound s e).standing = s.standing := by
  simp [countFound]

@[simp] theorem countAll_standing (s : State) (es : List MemError) : (countAll s es).standing = s.standing := by
  simp [countAll]

@[simp] theorem raiseFound_standing (s : State) (job : Nat) (errors : List MemError) :
    (raiseFound s job errors).standing = s.standing := by
  simp [raiseFound]

@[simp] theorem State.addSum_standing (s : State) (tile : Nat) (f : ArithSum → ArithSum) :
    (s.addSum tile f).standing = s.standing := by
  simp [State.addSum]

/-! ### Hawk and Float (R114 to R138) -/

@[simp] theorem doFill_standing (s : State) (o : Op) (a : Arr) (unit : Nat) (f : Fmt) :
    (doFill s o a unit f).standing = s.standing := by
  simp [doFill]

@[simp] theorem doReadLine_standing (s : State) (o : Op) (a : Arr) (d : Desc) (block : Bool) (mask : Nat) :
    (doReadLine s o a d block mask).standing = s.standing := by
  simp [doReadLine]

@[simp] theorem doReadWeights_standing (s : State) (o : Op) (a : Arr) (set row : Nat) (start block : Bool) (line : List Int)
    (scale factor mask : Nat) : (doReadWeights s o a set row start block line scale factor mask).standing = s.standing := by
  simp [doReadWeights]

@[simp] theorem doAddRow_standing (s : State) (o : Op) (a : Arr) (row : Nat) (start block : Bool) (terms : List Int) :
    (doAddRow s o a row start block terms).standing = s.standing := by
  simp [doAddRow]

@[simp] theorem doHook_standing (s : State) (o : Op) (a : Arr) (h unit : Nat) (ys : List FRes) (mask : Nat) :
    (doHook s o a h unit ys mask).standing = s.standing := by
  simp [doHook]

/-! ### The Skim unit (R139 to R146) -/

@[simp] theorem skimFetch_standing (s : State) (o : Op) (d : Desc) (control : BitVec 64) :
    (skimFetch s o d control).standing = s.standing := by
  simp [skimFetch]

@[simp] theorem doSkim_standing (s : State) (o : Op) (d : Desc) (e : SkimEntry) (control : BitVec 64) :
    (doSkim s o d e control).standing = s.standing := by
  simp [doSkim]

/-! ### Reads, writes, puts and takes (R158 to R165, R217 to R222) -/

@[simp] theorem doMemRead_standing (s : State) (o : Op) (m : MemJob) (done : Nat) :
    (doMemRead s o m done).standing = s.standing := by
  simp [doMemRead]

@[simp] theorem doReadLand_standing (s : State) (o : Op) (m : MemJob) (raw : List Byte) (take : Option Bool) (kept : Bool) :
    (doReadLand s o m raw take kept).standing = s.standing := by
  simp [doReadLand]

@[simp] theorem doMemWrite_standing (s : State) (o : Op) (m : MemJob) (bs : List Byte) :
    (doMemWrite s o m bs).standing = s.standing := by
  simp [doMemWrite]

@[simp] theorem doMemStore_standing (s : State) (o : Op) (m : MemJob) (bs : List Byte) :
    (doMemStore s o m bs).standing = s.standing := by
  simp [doMemStore]

@[simp] theorem doPut_standing (s : State) (o : Op) (m : MemJob) (off : Nat) (bs : List Byte) (scales : List Nat)
    (keepable : Bool) : (doPut s o m off bs scales keepable).standing = s.standing := by
  unfold doPut
  dsimp only
  repeat' split
  all_goals simp

@[simp] theorem doTake_standing (s : State) (o : Op) (m : MemJob) (off : Nat) (toFp : Bool) :
    (doTake s o m off toFp).standing = s.standing := by
  simp [doTake]

/-! ### Sends, receives and arrives (R343 to R347, R360 to R364, R475) -/

@[simp] theorem queueFlits_standing (s : State) (p : Part) (pid link ready id : Nat) (fs : List Flit) :
    (queueFlits s p pid link ready id fs).1.standing = s.standing := by
  unfold queueFlits
  dsimp only
  repeat' split
  all_goals simp

@[simp] theorem missGrant_standing (s : State) (tile : Nat) : (missGrant s tile).standing = s.standing := by
  simp [missGrant]

@[simp] theorem landFlit_standing (s : State) (jid unit entry index at_ : Nat) (data : Option (List Byte)) :
    (landFlit s jid unit entry index at_ data).standing = s.standing := by
  simp [landFlit]

@[simp] theorem landAt_standing (s : State) (jid unit img entry index at_ : Nat) (data : Option (List Byte)) :
    (landAt s jid unit img entry index at_ data).standing = s.standing := by
  simp [landAt]

@[simp] theorem doDieLand_standing (s : State) (jid entry : Nat) (bs : List Byte) (target at_ : Nat) :
    (doDieLand s jid entry bs target at_).standing = s.standing := by
  simp [doDieLand]

@[simp] theorem landUse_standing (s : State) (o : Op) (rid : Nat) : (landUse s o rid).standing = s.standing := by
  unfold landUse
  dsimp only
  repeat' split
  all_goals simp

@[simp] theorem doDeliver_standing (s00 : State) (o : Op) (rid : Nat) (entry : Option Nat) :
    (doDeliver s00 o rid entry).1.standing = s00.standing := by
  unfold doDeliver
  dsimp only
  repeat' split
  all_goals simp

@[simp] theorem doArrive_standing (s : State) (jid object amount die at_ : Nat) :
    (doArrive s jid object amount die at_).standing = s.standing := by
  unfold doArrive
  dsimp only
  repeat' split
  all_goals simp

/-! ### The exact gradient reduction (R242 to R268, R477) -/

@[simp] theorem State.emitPacket_standing (s : State) (o : Op) (due : Nat) (p : Packet) (die : Nat) :
    (s.emitPacket o due p die).standing = s.standing := by
  simp [State.emitPacket]

@[simp] theorem carryPacket_standing (s : State) (o : Op) (cls : Nat) (e : SendEntry) (p : Packet) (offset due ready : Nat) :
    (carryPacket s o cls e p offset due ready).standing = s.standing := by
  unfold carryPacket
  split <;> simp

@[simp] theorem sendPacket_standing (s : State) (o : Op) (cls : Nat) (e : SendEntry) (p : Packet) (offset due ready : Nat) :
    (sendPacket s o cls e p offset due ready).standing = s.standing := by
  simp [sendPacket]

@[simp] theorem State.placedAccess_standing (s : State) (at_ : Option (Nat × Nat)) (o : Op) (j : Job) (arrival : Nat) (act : Act) :
    (s.placedAccess at_ o j arrival act).standing = s.standing := by
  unfold State.placedAccess
  split <;> simp

@[simp] theorem State.residAccess_standing (s : State) (o : Op) (j : Job) (off arrival : Nat) (act : Act) :
    (s.residAccess o j off arrival act).standing = s.standing := by
  simp [State.residAccess]

@[simp] theorem missResid_standing (s : State) (tile : Nat) (window : Bool) : (missResid s tile window).standing = s.standing := by
  simp [missResid]

@[simp] theorem doResidRead_standing (s : State) (o : Op) (cls send part kind : Nat) (payload : List Byte) (nan : Nat) :
    (doResidRead s o cls send part kind payload nan).standing = s.standing := by
  unfold doResidRead
  cases s.job o.job with
  | none => rfl
  | some j =>
    dsimp -zeta only
    cases s.sendEntry j o.tile send with
    | none => rfl
    | some e =>
      cases j.live with
      | none => rfl
      | some r =>
        dsimp -zeta only
        extract_lets +lift t rb wb win src bad vals hd wPlace wAddr s00 s01 s0 write run k run1 off picked keep pad s1 s2 rows sel
          er xs ts clips sat e8 out readNan readSat s1' setRun cen cen1 run1' s2' run1'' first off' p lat s2''
        have opened : s0.standing = s.standing := by
          have counted : s00.standing = s.standing := by
            unfold s00
            split <;> simp
          simp [s0, s01, counted]
        have written (st : State) (xs : List Int) (h : List Byte) : (write st xs h).standing = st.standing :=
          State.residAccess_standing ..
        have kept (st : State) (r : SendRun) : (setRun st r).standing = st.standing := State.updTile_standing ..
        have clipped : s1'.standing = s.standing := (State.updRun_standing ..).trans opened
        split
        · rw [written]
          simp [s2, s1, opened]
        · split
          · rw [written]
            simp [s2', kept, clipped]
          · split
            · rw [written, kept, clipped]
            · rw [written]
              simp [s2'', kept, clipped]

@[simp] theorem doResidWrite_standing (s : State) (o : Op) (addr : Nat) (bs : List Byte) (hdr : Nat) (h : List Byte) (live : Bool) :
    (doResidWrite s o addr bs hdr h live).standing = s.standing := by
  simp [doResidWrite]

@[simp] theorem addValues_standing (s : State) (die base tag : Nat) (vals : List (Nat × Int)) :
    (addValues s die base tag vals).standing = s.standing := by
  simp [addValues]

@[simp] theorem addFate_standing (s : State) (jid : Nat) (p : Packet) (fate : Nat) :
    (addFate s jid p fate).standing = s.standing := by
  simp [addFate]

@[simp] theorem queueFull_standing (s : State) (c : Nat) (p : Packet) (at_ : Nat) :
    (queueFull s c p at_).standing = s.standing := by
  unfold queueFull
  dsimp only
  repeat' split
  all_goals simp

@[simp] theorem packetArrive_standing (s : State) (p : Packet) (die at_ : Nat) (forced : Option Nat) :
    (packetArrive s p die at_ forced).standing = s.standing := by
  unfold packetArrive
  dsimp only
  repeat' split
  all_goals simp

@[simp] theorem noteDiverged_standing (s : State) (p : Packet) : (noteDiverged s p).standing = s.standing := by
  unfold noteDiverged
  split <;> simp

@[simp] theorem packetLand_standing (s : State) (p : Packet) (die at_ : Nat) : (packetLand s p die at_).standing = s.standing := by
  simp [packetLand]

@[simp] theorem closeBucket_standing (s : State) (jid bucket : Nat) (errors : List MemError) :
    (closeBucket s jid bucket errors).standing = s.standing := by
  unfold closeBucket
  extract_lets +lift bad s0
  have counted : s0.standing = s.standing := by simp [s0]
  cases s0.job jid with
  | none => exact counted
  | some j =>
    dsimp -zeta only
    cases j.live with
    | none => exact counted
    | some r =>
      cases s0.bucketEntry j bucket with
      | none => exact counted
      | some b =>
        dsimp -zeta only
        extract_lets +lift mine home
        beta_reduce
        extract_lets +lift c queued newest e s1 s2 s3 n s3b
        have taken : s3.standing = s.standing := by
          refine (foldl_standing (fun st q => ?_) _ _).trans ?_
          · extract_lets +lift f st1
            split
            · split <;> simp [st1]
            · simp [st1]
          · simp [s2, s1, counted]
        cases accAddr s3 j b with
        | none => exact taken
        | some a =>
          dsimp -zeta only
          extract_lets +lift area v s4 s5 s6
          have closed : s5.standing = s.standing := by
            have summed : s4.standing = s.standing := by simp [s4, s3b, taken]
            unfold s5
            split <;> simp [summed]
          simp [s6, closed]

@[simp] theorem landCloseWord_standing (s : State) (jid at_ : Nat) (w : CloseWord) :
    (landCloseWord s jid at_ w).standing = s.standing := by
  unfold landCloseWord
  dsimp only
  repeat' split
  all_goals simp

/-! ### Issues (R64, R67 to R70) -/

@[simp] theorem checkEntries_standing (s : State) (jid tile unit : Nat) (r : IssueRec) :
    (checkEntries s jid tile unit r).standing = s.standing := by
  unfold checkEntries
  split <;> simp

@[simp] theorem releaseEntries_standing (s : State) (tile : Nat) (es : List Nat) :
    (releaseEntries s tile es).standing = s.standing := by
  simp [releaseEntries]

@[simp] theorem claimEntry_standing (s : State) (o : Op) (e : Nat) : (claimEntry s o e).standing = s.standing := by
  unfold claimEntry
  split
  · simp
  · split <;> simp

@[simp] theorem countIssue_standing (s : State) (jid tile unit : Nat) : (countIssue s jid tile unit).standing = s.standing := by
  unfold countIssue
  split <;> simp

@[simp] theorem scoreEvents_standing (s : State) (o : Op) (r : IssueRec) : (scoreEvents s o r).standing = s.standing := by
  unfold scoreEvents
  dsimp only
  repeat' split
  all_goals simp

@[simp] theorem beginIssue_standing (s : State) (tile unit cls : Nat) (r : IssueRec) :
    (beginIssue s tile unit cls r).1.standing = s.standing := by
  simp [beginIssue]

@[simp] theorem traceIssue_standing (s : State) (tile unit : Nat) (r : IssueRec) :
    (traceIssue s tile unit r).standing = s.standing := by
  simp [traceIssue]

@[simp] theorem classWork_standing (s : State) (o : Op) (a : Arr) (cls : Nat) (r : IssueRec) :
    (classWork s o a cls r).standing = s.standing :=
  (classWork_frame o rfl a cls r).standing

@[simp] theorem State.passTo_standing (s : State) (tile n : Nat) : (s.passTo tile n).standing = s.standing := by
  simp [State.passTo]

@[simp] theorem issueNow_standing (s : State) (tile : Nat) (a : Arr) (cls : Nat) (r : IssueRec) :
    (issueNow s tile a cls r).standing = s.standing := by
  simp [issueNow]

/-! ### Operations in flight, and the clock (R69, R155) -/

@[simp] theorem completeEntry_standing (s : State) (o : Op) (entry : Option Nat) :
    (completeEntry s o entry).standing = s.standing := by
  unfold completeEntry
  split
  · rfl
  · split
    · simp
    · split <;> simp

@[simp] theorem completeStatus_standing (s : State) (o : Op) (entry : Option Nat) :
    (completeStatus s o entry).standing = s.standing := by
  unfold completeStatus
  dsimp only
  repeat' split
  all_goals simp

@[simp] theorem State.delay_standing (s : State) (id d : Nat) : (s.delay id d).standing = s.standing := by
  simp [State.delay]

@[simp] theorem doClaim_standing (s : State) (o : Op) (res left grant : Nat) (tier2 : Bool) (planned : Nat) (next : Act) :
    (doClaim s o res left grant tier2 planned next).standing = s.standing := by
  simp [doClaim]

@[simp] theorem doCross_standing (s : State) (o : Op) (off : Nat) (next : Act) : (doCross s o off next).standing = s.standing := by
  unfold doCross
  split <;> simp

@[simp] theorem runAct_standing (s : State) (o : Op) : (runAct s o).standing = s.standing := by
  unfold runAct
  split <;> simp

@[simp] theorem runOp_standing (s : State) (o : Op) : (runOp s o).standing = s.standing := by
  simp [runOp]

@[simp] theorem runDue_standing (t fuel : Nat) (s : State) : (runDue t fuel s).standing = s.standing := by
  induction fuel generalizing s with
  | zero => rfl
  | succ fuel ih =>
    unfold runDue
    split
    · rfl
    · split <;> simp [ih]

@[simp] theorem State.advance_standing (s : State) (t : Nat) : (s.advance t).standing = s.standing := by
  simp [State.advance]

@[simp] theorem runThrough_standing (t fuel : Nat) (s : State) : (runThrough t fuel s).standing = s.standing := by
  induction fuel generalizing s with
  | zero => rfl
  | succ fuel ih =>
    unfold runThrough
    split
    · rfl
    · split <;> simp [ih]

@[simp] theorem State.through_standing (s : State) (t : Nat) : (s.through t).standing = s.standing := by
  simp [State.through]

@[simp] theorem State.reach_standing (s : State) (t : Nat) : (s.reach t).standing = s.standing := by
  simp [State.reach]

@[simp] theorem repeatIssues_standing (s : State) (tile base : Nat) (l : List (Nat × Nat × Nat × IssueRec)) :
    (repeatIssues s tile base l).standing = s.standing := by
  simp [repeatIssues]

end Sys2Proof.Machine
end

section
/-!
PROOF. The standing of a module, which all but a few operations keep: the link layer, serving, jobs and steps, and the clock.
-/
namespace Sys2Proof.Machine

/-! ### The link layer (R342 to R369) -/

@[simp] theorem rxFlit_standing (s : State) (link : Nat) (f : Flit) : (rxFlit s link f).1.standing = s.standing := by
  unfold rxFlit
  dsimp only
  repeat' split
  all_goals simp

@[simp] theorem misaddress_standing (s : State) (link : Nat) : (misaddress s link).standing = s.standing := by
  simp [misaddress]

@[simp] theorem unroute_standing (s : State) (link : Nat) : (unroute s link).standing = s.standing := by
  simp [unroute]

@[simp] theorem landScheduled_standing (s : State) (link : Nat) (f : Flit) (data : Option (List Byte)) :
    (landScheduled s link f data).standing = s.standing := by
  simp [landScheduled]

@[simp] theorem landSync_standing (s : State) (link : Nat) (f : Flit) : (landSync s link f).standing = s.standing := by
  unfold landSync
  split <;> simp

@[simp] theorem landNotice_standing (s : State) (f : FaultRec) : (landNotice s f).standing = s.standing := by
  simp [landNotice]

/-- A link that is left can lose its source (R36), which is kept all the same until HOLDOVER begins. -/
@[simp] theorem leaveLink_standing (s : State) (link : Nat) : (leaveLink s link).standing = s.standing := by
  unfold leaveLink
  dsimp only
  split <;> split <;> rfl

@[simp] theorem enterDuplicate_standing (s : State) (link : Nat) : (enterDuplicate s link).standing = s.standing := by
  simp [enterDuplicate]

@[simp] theorem markDuplicates_standing (s : State) : (markDuplicates s).standing = s.standing := by
  unfold markDuplicates
  refine foldl_standing (fun st e => ?_) _ s
  split <;> simp

@[simp] theorem settleHello_standing (s : State) (link : Nat) : (settleHello s link).standing = s.standing := by
  unfold settleHello
  dsimp only
  repeat' split
  all_goals simp

@[simp] theorem landHello_standing (s : State) (link : Nat) (f : Flit) : (landHello s link f).standing = s.standing := by
  simp [landHello]

@[simp] theorem sendOn_standing (s : State) (link : Nat) (f : Flit) : (sendOn s link f).standing = s.standing := by
  unfold sendOn
  dsimp only
  repeat' split
  all_goals simp

@[simp] theorem routeFlit_standing (s : State) (link : Nat) (f : Flit) : (routeFlit s link f).standing = s.standing := by
  simp [routeFlit]

@[simp] theorem sendBest_standing (s : State) (module message : Nat) (bs : List Byte) :
    (sendBest s module message bs).standing = s.standing := by
  simp [sendBest]

@[simp] theorem sendNotice_standing (s : State) (link : Nat) : (sendNotice s link).standing = s.standing := by
  simp [sendNotice]

@[simp] theorem sendPoint_delaySend_standing (s : State) (l : Link) : (sendPoint.delaySend s l).standing = s.standing := by
  unfold sendPoint.delaySend
  split <;> simp

@[simp] theorem sendPoint_standing (s : State) (link : Nat) : (sendPoint s link).standing = s.standing := by
  simp [sendPoint]

/-! ### Replies (R334, R414 to R416) -/

@[simp] theorem State.answer_standing (s : State) (fits : Cmd → Bool) (r : Cmd → Reply) :
    (s.answer fits r).standing = s.standing := by
  simp [State.answer]

@[simp] theorem State.answerJob_standing (s : State) (opcode jid : Nat) (r : Reply) :
    (s.answerJob opcode jid r).standing = s.standing := by
  simp [State.answerJob]

@[simp] theorem State.answerAll_standing (s : State) (jid status : Nat) (except : Nat → Bool) :
    (s.answerAll jid status except).standing = s.standing := by
  simp [State.answerAll]

/-! ### Records (R394, R395) -/

@[simp] theorem State.makeRoom_standing (s : State) (n : Nat) : (s.makeRoom n).standing = s.standing := by
  simp [State.makeRoom]

@[simp] theorem writeRecord_standing (s : State) (jid : Nat) (r : StepRun) (stop outcome harvested : Nat)
    (ledger : List (List Byte)) : (writeRecord s jid r stop outcome harvested ledger).standing = s.standing := by
  unfold writeRecord
  split <;> simp

/-! ### Serving (R269 to R285) -/

@[simp] theorem State.updReq_standing (s : State) (e : Nat) (f : Req → Req) : (s.updReq e f).standing = s.standing := by
  simp [State.updReq]

@[simp] theorem State.updServe_standing (s : State) (jid : Nat) (f : Serve → Serve) :
    (s.updServe jid f).standing = s.standing := by
  simp [State.updServe]

@[simp] theorem State.sharePool_standing (s : State) (jid : Nat) : (s.sharePool jid).standing = s.standing := by
  simp [State.sharePool]

@[simp] theorem State.updPool_standing (s : State) (jid : Nat) (f : Serve → Serve) :
    (s.updPool jid f).standing = s.standing := by
  simp [State.updPool]

@[simp] theorem registerBlocks_standing (s : State) (jid e first last : Nat) :
    (registerBlocks s jid e first last).standing = s.standing := by
  unfold registerBlocks
  split <;> simp

theorem grantPages_standing {s t : State} {jid pool : Nat} {d e : Draft} (h : grantPages s jid pool d = some (t, e)) :
    t.standing = s.standing := by
  unfold grantPages at h
  dsimp only at h
  split at h
  · cases h
  · cases h; simp

@[simp] theorem returnPages_standing (s : State) (jid : Nat) (d : Draft) : (returnPages s jid d).standing = s.standing := by
  simp [returnPages]

@[simp] theorem stageLeaves_standing (s : State) (jid : Nat) : (stageLeaves s jid).standing = s.standing := by
  simp [stageLeaves]

@[simp] theorem enterParking_standing (s : State) (e ttl : Nat) : (enterParking s e ttl).standing = s.standing := by
  simp [enterParking]

@[simp] theorem placeParking_standing (s : State) (jid parkPages : Nat) (e : Nat × Req) :
    (placeParking s jid parkPages e).standing = s.standing := by
  simp [placeParking]

@[simp] theorem State.writeWindow_standing (s : State) (j : Job) (die : Nat) (tier2 : Bool) (off : Nat) (bs : List Byte) :
    (s.writeWindow j die tier2 off bs).standing = s.standing := by
  unfold State.writeWindow
  split <;> simp

@[simp] theorem writeDescription_standing (s : State) (j : Job) (p : StepPlan) :
    (writeDescription s j p).standing = s.standing := by
  simp [writeDescription]

@[simp] theorem writePageList_standing (s : State) (j : Job) (e : Nat) : (writePageList s j e).standing = s.standing := by
  simp [writePageList]

@[simp] theorem placeAll_standing (s : State) (jid parkPages : Nat) : (placeAll s jid parkPages).standing = s.standing := by
  simp [placeAll]

/-! The stages of planning (R276 to R278) work on a state of their own. -/

theorem stageRunning_standing (p : Planning) (jid pool : Nat) : (stageRunning p jid pool).s.standing = p.s.standing := by
  unfold stageRunning
  refine foldl_keeps (fun q : Planning => q.s.standing) (fun q e => ?_) _ p
  split
  · rfl
  · split
    · rfl
    · split
      next granted => exact grantPages_standing granted
      next => rfl

theorem retryUnmet_standing (p : Planning) (jid pool : Nat) : (retryUnmet p jid pool).s.standing = p.s.standing := by
  unfold retryUnmet
  refine (foldl_keeps (fun q : Planning => q.s.standing) (fun q d => ?_) _ _).trans rfl
  split
  next granted => exact grantPages_standing granted
  next => rfl

theorem stageShortage_standing (jid pool ttl fuel : Nat) (p : Planning) :
    (stageShortage jid pool ttl fuel p).s.standing = p.s.standing := by
  induction fuel generalizing p with
  | zero => rfl
  | succ fuel ih =>
    unfold stageShortage
    dsimp only
    split
    · rfl
    · split
      · rfl
      · rw [ih, retryUnmet_standing]; simp

theorem grantJoin_standing {p q : Planning} {jid pool pageBytes : Nat} {e : Nat × Req}
    (h : grantJoin p jid pool pageBytes e = some q) : q.s.standing = p.s.standing := by
  unfold grantJoin at h
  dsimp only at h
  split at h
  · split at h
    · cases h
    · split at h
      · cases h
      next granted =>
        cases h
        obtain ⟨d, -, granted⟩ := Option.bind_eq_some_iff.1 granted
        simp [grantPages_standing granted]
  · split at h
    · cases h
    · cases h; simp
  · split at h
    · cases h
    · cases h; simp
  · split at h
    · cases h
    · split at h
      · cases h
      next granted => cases h; simp [grantPages_standing granted]
  · cases h

theorem stageJoins_standing (p : Planning) (jid pool pageBytes : Nat) :
    (stageJoins p jid pool pageBytes).s.standing = p.s.standing := by
  unfold stageJoins
  refine foldl_keeps (fun q : Planning => q.s.standing) (fun q e => ?_) _ p
  split
  · rfl
  · split
    next joined => exact grantJoin_standing joined
    next => rfl

theorem undoJoin_standing (p : Planning) (jid : Nat) (d : Draft) (was : Req) :
    (undoJoin p jid d was).s.standing = p.s.standing := by
  simp [undoJoin]

theorem shorten_standing (p : Planning) (jid : Nat) (d : Draft) (n : Nat) : (shorten p jid d n).s.standing = p.s.standing := by
  simp [shorten]

theorem reduceBatch_standing (j : Job) (jid split : Nat) (before : SMap Req) (fuel : Nat) (p : Planning) :
    (reduceBatch j jid split before fuel p).1.s.standing = p.s.standing := by
  induction fuel generalizing p with
  | zero => rfl
  | succ fuel ih =>
    unfold reduceBatch
    split
    · rfl
    · split
      · rw [ih, undoJoin_standing]
      · split
        · rw [ih, shorten_standing]
        · split
          · rfl
          · rw [ih]; simp

@[simp] theorem planStep_standing (s : State) (jid step start : Nat) : (planStep s jid step start).standing = s.standing := by
  unfold planStep
  split
  · rfl
  · extract_lets +lift v0 ahead early pool pageBytes s1 s2 all p q drafted p1 before red p2 c s3
    have left : s2.standing = s.standing := by simp [s2, s1]
    have joined : p1.s.standing = s.standing := by
      unfold p1
      split
      · exact left
      · rw [stageJoins_standing, stageShortage_standing, stageRunning_standing, left]
    have reduced : s3.standing = s.standing := by simp [s3, p2, red, reduceBatch_standing, joined]
    split
    · split <;> simp [early]
    · clear_value c s3
      cases c with
      | none => rfl
      | some c => simp [reduced]

@[simp] theorem finishReq_standing (s : State) (jid e ttl : Nat) : (finishReq s jid e ttl).standing = s.standing := by
  simp [finishReq]

@[simp] theorem endRow_standing (s : State) (jid ttl stop : Nat) (row : PlanRow) (o : RowOut) :
    (endRow s jid ttl stop row o).1.standing = s.standing := by
  unfold endRow
  dsimp only
  repeat' split
  all_goals simp

@[simp] theorem endMove_standing (s : State) (jid : Nat) (m : Move) : (endMove s jid m).standing = s.standing := by
  simp [endMove]

@[simp] theorem rewriteDiscards_standing (s : State) (jid stop : Nat) : (rewriteDiscards s jid stop).standing = s.standing := by
  unfold rewriteDiscards
  split <;> simp

@[simp] theorem endServing_standing (s : State) (jid : Nat) (run : StepRun) (stop : Nat) (outs : List RowOut) :
    (endServing s jid run stop outs).1.standing = s.standing := by
  unfold endServing
  split
  · rfl
  · split
    · rfl
    · extract_lets +lift s0 pairs res s1 s2 s3
      have rows : res.1.standing = s.standing := by
        refine (foldl_keeps (fun acc : State × List (List Byte) × Nat × List Nat => acc.1.standing) (fun acc x => ?_) _ _).trans ?_
        · simp
        · simp [s0]
      have posted : s2.standing = s.standing := by
        unfold s2
        split <;> simp [s1, rows]
      simp [s3, posted]

@[simp] theorem dropPlans_standing (s : State) (jid : Nat) (run : Option StepRun) :
    (dropPlans s jid run).1.standing = s.standing := by
  simp [dropPlans]

/-! ### Snapshots (R370 to R377, R389, R390) -/

@[simp] theorem clearDust_standing (s : State) (j : Job) : (clearDust s j).standing = s.standing := by
  unfold clearDust
  refine foldl_standing (fun st img => ?_) _ s
  split <;> simp

@[simp] theorem writeItem_standing (s : State) (j : Job) (m : ManItem) (bs : List Byte) :
    (writeItem s j m bs).standing = s.standing := by
  unfold writeItem
  split
  · simp
  · simp
  · split
    · simp
    · split <;> simp
  · simp

@[simp] theorem writeControl_standing (s : State) (jid step : Nat) (update : Bool) :
    (writeControl s jid step update).standing = s.standing := by
  simp [writeControl]

@[simp] theorem askCapture_standing (s : State) (jid : Nat) (checkpoint : Bool) :
    (askCapture s jid checkpoint).standing = s.standing := by
  unfold askCapture
  dsimp only
  repeat' split
  all_goals simp

@[simp] theorem takeRequests_standing (s : State) : (takeRequests s).standing = s.standing := by
  simp [takeRequests]

@[simp] theorem discardCapture_standing (s : State) (jid : Nat) : (discardCapture s jid).standing = s.standing := by
  simp [discardCapture]

@[simp] theorem State.putCipher_standing (s : State) (die a : Nat) (bs : List Byte) :
    (s.putCipher die a bs).standing = s.standing := by
  simp [State.putCipher]

@[simp] theorem sealSnapshot_standing (s : State) (jid : Nat) (j : Job) (c : Capture) :
    (sealSnapshot s jid j c).standing = s.standing := by
  unfold sealSnapshot
  dsimp only
  rw [standing_update]
  refine (foldl_standing (fun st h => ?_) _ _).trans (standing_update s)
  split
  · simp
  · split <;> simp

@[simp] theorem landPart_standing (s : State) (all : List SnapPart) (x : SnapPart) : (landPart s all x).standing = s.standing := by
  unfold landPart
  dsimp only
  repeat' split
  all_goals simp

@[simp] theorem restoreItems_standing (s : State) (jid : Nat) (j : Job) (e : CatEntry) (remote : List (Nat × List Byte)) :
    (restoreItems s jid j e remote).2.standing = s.standing := by
  unfold restoreItems
  dsimp only
  repeat' split
  all_goals simp

/-! ### Contexts and partitions (R319 to R335) -/

@[simp] theorem State.scrub_standing (s : State) (tile : Nat) : (s.scrub tile).standing = s.standing := by
  simp [State.scrub]

@[simp] theorem saveTile_standing (s : State) (j : Job) (img tile : Nat) : (saveTile s j img tile).standing = s.standing := by
  unfold saveTile
  split <;> simp

@[simp] theorem loadTile_standing (s : State) (j : Job) (jid img tile : Nat) :
    (loadTile s j jid img tile).standing = s.standing := by
  unfold loadTile
  split <;> simp

@[simp] theorem saveDie_standing (s : State) (j : Job) (die : Nat) : (saveDie s j die).standing = s.standing := by
  simp [saveDie]

@[simp] theorem moveOverlay_standing (s : State) (j : Job) (jid die : Nat) (fill : Bool) :
    (moveOverlay s j jid die fill).standing = s.standing := by
  unfold moveOverlay
  dsimp only
  repeat' split
  all_goals simp

@[simp] theorem swapOut_standing (s : State) (jid : Nat) : (swapOut s jid).standing = s.standing := by
  unfold swapOut
  split <;> simp

@[simp] theorem seat_standing (s : State) (jid : Nat) (binding : SMap Nat) (due : Option Nat) :
    (seat s jid binding due).standing = s.standing := by
  simp [seat]

@[simp] theorem leaveDie_standing (s : State) (jid die k : Nat) : (leaveDie s jid die k).standing = s.standing := by
  unfold leaveDie
  split <;> simp

@[simp] theorem unbind_standing (s : State) (w : Switch) : (unbind s w).standing = s.standing := by
  simp [unbind]

@[simp] theorem dropSwitch_standing (s0 : State) (w : Switch) : (dropSwitch s0 w).standing = s0.standing := by
  simp [dropSwitch]

@[simp] theorem leavePrefix_standing (s : State) (jid : Nat) (j : Job) : (leavePrefix s jid j).standing = s.standing := by
  unfold leavePrefix
  split <;> simp

@[simp] theorem takePrefix_standing (s : State) (jid : Nat) : (takePrefix s jid).standing = s.standing := by
  unfold takePrefix
  dsimp only
  repeat' split
  all_goals simp

@[simp] theorem releaseJob_standing (s0 : State) (jid : Nat) : (releaseJob s0 jid).standing = s0.standing := by
  unfold releaseJob
  split <;> simp

@[simp] theorem State.releaseTier1_standing (s : State) (old new : SMap Window) :
    (s.releaseTier1 old new).standing = s.standing := by
  simp [State.releaseTier1]

@[simp] theorem destroyPart_standing (s : State) (pid : Nat) : (destroyPart s pid).standing = s.standing := by
  simp [destroyPart]

@[simp] theorem applySlice_standing (s0 : State) (pid : Nat) (block : List Byte) :
    (applySlice s0 pid block).standing = s0.standing := by
  simp [applySlice]

@[simp] theorem State.plan_standing (s : State) (at_ : Nat) (a : FrameAct) : (s.plan at_ a).standing = s.standing := by
  simp [State.plan]

@[simp] theorem withdraw_standing (s : State) (jid : Nat) (last : Option Nat) (ends : Bool) :
    (withdraw s jid last ends).standing = s.standing := by
  unfold withdraw
  split <;> simp

@[simp] theorem settlePart_standing (s : State) (c : Cmd) : (settlePart s c).standing = s.standing := by
  simp [settlePart]

@[simp] theorem settleParts_standing (s : State) : (settleParts s).standing = s.standing := by
  simp [settleParts]

@[simp] theorem fenceJob_standing (s : State) (jid : Nat) : (fenceJob s jid).standing = s.standing := by
  unfold fenceJob
  dsimp only
  repeat' split
  all_goals simp

@[simp] theorem pauseJob_standing (s : State) (jid : Nat) : (pauseJob s jid).standing = s.standing := by
  unfold pauseJob
  split <;> simp

@[simp] theorem boundary_standing (s : State) (jid at_ frames : Nat) : (boundary s jid at_ frames).standing = s.standing := by
  unfold boundary
  split <;> simp

/-! ### A step's life (R63 to R84, R226 to R267), and the fence (R40) -/

@[simp] theorem storeAtImage_standing (s : State) (j : Job) (img unit : Nat) (bs : List Byte) :
    (storeAtImage s j img unit bs).standing = s.standing := by
  unfold storeAtImage
  split <;> simp

@[simp] theorem beginStep_standing (s : State) (jid : Nat) (j : Job) (w : Told) : (beginStep s jid j w).standing = s.standing := by
  unfold beginStep
  split <;> simp

@[simp] theorem startStep_standing (s : State) (jid : Nat) (ws : List StepWords) : (startStep s jid ws).standing = s.standing := by
  unfold startStep
  dsimp only
  repeat' split
  all_goals simp

@[simp] theorem takeBeat_standing (s : State) (jid obj : Nat) : (takeBeat s jid obj).1.standing = s.standing := by
  unfold takeBeat
  dsimp only
  repeat' split
  all_goals simp

@[simp] theorem replayStep_standing (s : State) (jid at_ : Nat) (r : StepRun) : (replayStep s jid at_ r).standing = s.standing := by
  unfold replayStep
  dsimp only
  repeat' split
  all_goals simp

@[simp] theorem finishStep_standing (s : State) (jid : Nat) (j : Job) (r0 : StepRun) (outs : List RowOut) :
    (finishStep s jid j r0 outs).standing = s.standing := by
  simp [finishStep]

@[simp] theorem endStep_standing (s : State) (jid : Nat) (outs : List RowOut) : (endStep s jid outs).standing = s.standing := by
  unfold endStep
  dsimp only
  repeat' split
  all_goals simp

@[simp] theorem dropStep_standing (s : State) (jid at_ : Nat) (j : Job) (r : StepRun) (outs : List RowOut) :
    (dropStep s jid at_ j r outs).standing = s.standing := by
  simp [dropStep]

@[simp] theorem enterPaused_standing (s : State) (jid : Nat) : (enterPaused s jid).standing = s.standing := by
  simp [enterPaused]

@[simp] theorem afterAbandon_standing (s : State) (jid at_ : Nat) : (afterAbandon s jid at_).standing = s.standing := by
  unfold afterAbandon
  split <;> simp

@[simp] theorem closeFaults_standing (s : State) (jid at_ : Nat) : (closeFaults s jid at_).standing = s.standing := by
  unfold closeFaults
  dsimp only
  repeat' split
  all_goals simp

@[simp] theorem abandonStep_standing (s : State) (jid : Nat) (outs : List RowOut) :
    (abandonStep s jid outs).standing = s.standing := by
  unfold abandonStep
  dsimp only
  repeat' split
  all_goals simp

@[simp] theorem fenceOne_standing (s : State) (jid at_ : Nat) (mode : JobMode) :
    (fenceOne s jid at_ mode).standing = s.standing := by
  unfold fenceOne
  dsimp only
  repeat' split
  all_goals simp

@[simp] theorem fencePlane_standing (s : State) (at_ : Nat) : (fencePlane s at_).standing = s.standing := by
  simp [fencePlane]

/-! ### Frame boundaries (R50), and the clock as a command moves it -/

@[simp] theorem reclassLink_standing (s : State) (link : Nat) : (reclassLink s link).standing = s.standing := by
  unfold reclassLink
  dsimp only
  repeat' split
  all_goals simp

@[simp] theorem reclass_standing (s : State) : (reclass s).standing = s.standing := by
  simp [reclass]

@[simp] theorem retrainLink_standing (s : State) (link : Nat) : (retrainLink s link).standing = s.standing := by
  simp [retrainLink]

@[simp] theorem forceRetrain_standing (s : State) (link : Nat) : (forceRetrain s link).standing = s.standing := by
  simp [forceRetrain]

@[simp] theorem linkAction_standing (s : State) (action limit link : Nat) :
    (linkAction s action limit link).standing = s.standing := by
  unfold linkAction
  split <;> simp

@[simp] theorem loseContext_standing (s : State) (jid die at_ : Nat) : (loseContext s jid die at_).standing = s.standing := by
  unfold loseContext
  dsimp only
  repeat' split
  all_goals simp

@[simp] theorem loseDie_standing (s : State) (die at_ : Nat) : (loseDie s die at_).standing = s.standing := by
  simp [loseDie]

@[simp] theorem declareLoss_standing (s : State) (die cause : Nat) : (declareLoss s die cause).standing = s.standing := by
  simp [declareLoss]

@[simp] theorem failModule_standing (s : State) (at_ : Nat) : (failModule s at_).standing = s.standing := by
  simp [failModule]

@[simp] theorem zeroTier1_standing (s : State) (j : Job) (die off n : Nat) : (zeroTier1 s j die off n).standing = s.standing := by
  unfold zeroTier1
  split <;> simp

@[simp] theorem zeroAccums_standing (s : State) (j : Job) : (zeroAccums s j).standing = s.standing := by
  unfold zeroAccums
  split <;> simp

@[simp] theorem zeroResiduals_standing (s : State) (j : Job) : (zeroResiduals s j).standing = s.standing := by
  unfold zeroResiduals
  exact foldl_standing (fun st e => foldl_standing (fun x b => by
    rw [State.writeWindow_standing, zeroTier1_standing]) _ st) _ s

@[simp] theorem initTiles_standing (s : State) (j : Job) : (initTiles s j).standing = s.standing := by
  simp [initTiles]

@[simp] theorem takeTiles_standing (s : State) (jid : Nat) (binding : SMap Nat) (at_ : Nat) :
    (takeTiles s jid binding at_).standing = s.standing := by
  unfold takeTiles
  dsimp only
  repeat' split
  all_goals simp

@[simp] theorem lateCommit_standing (s : State) (jid at_ : Nat) : (lateCommit s jid at_).standing = s.standing := by
  simp [lateCommit]

@[simp] theorem applyAct_standing (s : State) (t : Nat) (a : FrameAct) : (applyAct s t a).standing = s.standing := by
  cases a <;> simp only [applyAct]
  case fence => split <;> simp
  case zero => split <;> simp
  case take => split <;> simp
  case counts => split <;> simp
  all_goals simp

@[simp] theorem settleActs_standing (t fuel : Nat) (s : State) : (settleActs t fuel s).standing = s.standing := by
  induction fuel generalizing s with
  | zero => rfl
  | succ fuel ih =>
    unfold settleActs
    split
    · rfl
    · split <;> simp [ih]

@[simp] theorem State.settle_standing (s : State) (t : Nat) : (s.settle t).standing = s.standing := by
  simp [State.settle]

@[simp] theorem State.settleBy_standing (s : State) (t : Option Nat) : (s.settleBy t).standing = s.standing := by
  unfold State.settleBy
  split <;> simp

@[simp] theorem State.after_standing (s : State) (dt : Nat) : (s.after dt).standing = s.standing := by
  simp [State.after]

@[simp] theorem State.upon_standing (s : State) (dt : Nat) : (s.upon dt).standing = s.standing := by
  simp [State.upon]

/-! ### Flits received (R347) and plugs (R469) -/

/-- What a received flit brings keeps the standing where its type's work does. -/
@[simp] theorem receive_standing (s : State) (dt link type : Nat) (f : Flit) {k : State → State}
    (h : ∀ u, (k u).standing = u.standing) : (receive s dt link type f k).standing = s.standing := by
  simp [receive, h]

@[simp] theorem seatPlug_standing (s : State) (link tenthWatts : Nat) : (seatPlug s link tenthWatts).standing = s.standing := by
  simp [seatPlug]

/-! ### The clock moved by frames (R35, R41) -/

@[simp] theorem State.shiftFrames_standing (s : State) (d : Int) : (s.shiftFrames d).standing = s.standing := by
  simp [State.shiftFrames]

end Sys2Proof.Machine
end

section
/-!
PROOF. The standing of a module, which all but a few operations keep: the start, host commands, and the tick.
-/
namespace Sys2Proof.Machine

/-! ### Quiesce and the start (R431 to R442, R453 to R457) -/

@[simp] theorem requestEmergency_standing (s : State) : (requestEmergency s).standing = s.standing := by
  unfold requestEmergency
  split <;> simp

@[simp] theorem requestOrderly_standing (s : State) : (requestOrderly s).standing = s.standing := by
  unfold requestOrderly
  split <;> simp

@[simp] theorem finishQuiesce_standing (s : State) : (finishQuiesce s).standing = s.standing := by
  simp [finishQuiesce]

@[simp] theorem State.noteAlarms_standing (s : State) (t : Nat) : (s.noteAlarms t).standing = s.standing := by
  simp [State.noteAlarms]

@[simp] theorem State.sense_standing (s : State) (p : Power) : (s.sense p).standing = s.standing := by
  simp [State.sense]

@[simp] theorem logStart_standing (s : State) (outcome : Nat) : (logStart s outcome).standing = s.standing := by
  simp [logStart]

@[simp] theorem openParts_standing (s : State) : (openParts s).standing = s.standing := by
  simp [openParts]

@[simp] theorem completeStart_standing (s : State) : (completeStart s).standing = s.standing := by
  simp [completeStart]

@[simp] theorem beginStart_standing (s : State) (update held : Bool) : (beginStart s update held).standing = s.standing := by
  simp [beginStart]

@[simp] theorem enterPhase_standing (s : State) (ended next : Nat) : (enterPhase s ended next).standing = s.standing := by
  simp [enterPhase]

@[simp] theorem leaveP7_standing (s : State) : (leaveP7 s).standing = s.standing := by
  simp [leaveP7]

@[simp] theorem leaveP8_standing (s : State) : (leaveP8 s).standing = s.standing := by
  simp [leaveP8]

@[simp] theorem enumerate_standing (s : State) (d : Option DriveReport) : (enumerate s d).standing = s.standing := by
  unfold enumerate
  split <;> simp

/-! ### Windows -/

@[simp] theorem State.updWin_standing (s : State) (w : Nat) (f : Win → Win) : (s.updWin w f).standing = s.standing := by
  unfold State.updWin
  split <;> simp

/-! ### Packets collected, and replies (R403 to R417) -/

@[simp] theorem collect_standing (s : State) (opcode : Nat) (c : Call) : (collect s opcode c).standing = s.standing := by
  simp [collect]

@[simp] theorem writeReply_standing (s : State) (c : Cmd) (r : Reply) : (writeReply s c r).standing = s.standing := by
  simp [writeReply]

@[simp] theorem postReplies_standing (s : State) (t : Nat) (due : List Nat) : (postReplies s t due).standing = s.standing := by
  unfold postReplies
  dsimp only
  refine (foldl_standing (fun st c => by simp) _ _).trans (foldl_standing (fun st c => ?_) _ s)
  split <;> simp

@[simp] theorem updateRegs_standing (s : State) (t : Nat) : (updateRegs s t).standing = s.standing := by
  simp [updateRegs]

@[simp] theorem placeVersion_standing (s : State) (jid : Nat) (x : ExpertVersion) :
    (placeVersion s jid x).standing = s.standing := by
  unfold placeVersion
  dsimp only
  repeat' split
  all_goals simp

@[simp] theorem settleExperts_standing (s : State) : (settleExperts s).standing = s.standing := by
  simp [settleExperts]

@[simp] theorem State.toTick_standing (s : State) : s.toTick.standing = s.standing := by
  simp [State.toTick]

@[simp] theorem refuse_standing (s : State) (c : Cmd) (status : Nat) (words : List Nat) :
    (refuse s c status words).1.standing = s.standing := by
  simp [refuse]

@[simp] theorem State.output_standing (s : State) (c : Cmd) (off : Nat) (bs : List Byte) :
    (s.output c off bs).standing = s.standing := by
  simp [State.output]

/-! ### Partition and image commands (R316 to R335, R419) -/

@[simp] theorem State.random_standing (s : State) : s.random.2.standing = s.standing := by
  simp [State.random]

@[simp] theorem doPartCreate_standing (s : State) (c : Cmd) : (doPartCreate s c).1.standing = s.standing := by
  unfold doPartCreate
  dsimp only
  repeat' split
  all_goals simp

@[simp] theorem doPartDestroy_standing (s : State) (c : Cmd) : (doPartDestroy s c).1.standing = s.standing := by
  unfold doPartDestroy
  dsimp only
  repeat' split
  all_goals simp

@[simp] theorem doPartSeal_standing (s : State) (c : Cmd) : (doPartSeal s c).1.standing = s.standing := by
  unfold doPartSeal
  dsimp only
  repeat' split
  all_goals simp

@[simp] theorem doPartSetSlice_standing (s : State) (c : Cmd) : (doPartSetSlice s c).1.standing = s.standing := by
  unfold doPartSetSlice
  dsimp only
  repeat' split
  all_goals simp

@[simp] theorem doImageLoad_standing (s : State) (c : Cmd) : (doImageLoad s c).1.standing = s.standing := by
  unfold doImageLoad
  dsimp only
  repeat' split
  all_goals simp

@[simp] theorem doImageUnload_standing (s : State) (c : Cmd) : (doImageUnload s c).1.standing = s.standing := by
  unfold doImageUnload
  dsimp only
  repeat' split
  all_goals simp

/-! ### Contexts placed, and switches (R326 to R333) -/

@[simp] theorem switchRates_standing (s : State) (pid : Nat) (outgoing : List Nat) :
    (switchRates s pid outgoing).2.standing = s.standing := by
  unfold switchRates
  refine foldl_keeps (fun acc : List (Nat × Nat) × State => acc.2.standing) (fun acc die => ?_) _ _
  dsimp only
  split <;> simp

@[simp] theorem phaseWork_standing (s : State) (w : Switch) (die phase : Nat) :
    (phaseWork s w die phase).standing = s.standing := by
  unfold phaseWork
  dsimp only
  repeat' split
  all_goals simp

@[simp] theorem planStepAt_standing (s : State) (jid at_ : Nat) : (planStepAt s jid at_).standing = s.standing := by
  unfold planStepAt
  dsimp only
  repeat' split
  all_goals simp

@[simp] theorem lateStart_standing (s : State) (jid : Nat) : (lateStart s jid).standing = s.standing := by
  simp [lateStart]

@[simp] theorem leadStarts_standing (s : State) (jid at_ : Nat) : (leadStarts s jid at_).standing = s.standing := by
  unfold leadStarts
  split <;> simp

@[simp] theorem finishSwitch_standing (s : State) (w : Switch) (at_ : Nat) : (finishSwitch s w at_).standing = s.standing := by
  unfold finishSwitch
  dsimp only
  repeat' split
  all_goals simp

@[simp] theorem State.setSwitch_standing (s : State) (w : Switch) : (s.setSwitch w).standing = s.standing := by
  simp [State.setSwitch]

@[simp] theorem beginSwitch_standing (s : State) (w : Switch) (at_ : Nat) : (beginSwitch s w at_).standing = s.standing := by
  simp [beginSwitch]

@[simp] theorem endSwitchPhase_standing (s : State) (w : Switch) (die at_ : Nat) :
    (endSwitchPhase s w die at_).standing = s.standing := by
  simp [endSwitchPhase]

@[simp] theorem place_standing (s : State) (jid : Nat) (j : Job) (binding : SMap Nat) (out : List Nat) :
    (place s jid j binding out).standing = s.standing := by
  simp [place]

@[simp] theorem classContexts_standing (s : State) (t : Nat) : (classContexts s t).standing = s.standing := by
  simp [classContexts]

@[simp] theorem placeContexts_standing (s : State) (t : Nat) : (placeContexts s t).standing = s.standing := by
  unfold placeContexts
  refine (foldl_standing (fun st e => ?_) _ _).trans (classContexts_standing s t)
  split
  · split <;> simp
  · rfl

/-! ### Job commands (R421, R422) -/

@[simp] theorem reasonReply_standing (s : State) (c : Cmd) (reason : Nat) (link : Option Nat) :
    (reasonReply s c reason link).1.standing = s.standing := by
  simp [reasonReply]

@[simp] theorem doJobStart_standing (s : State) (c : Cmd) : (doJobStart s c).1.standing = s.standing := by
  unfold doJobStart
  dsimp only
  repeat' split
  all_goals simp

@[simp] theorem doJobPause_standing (s : State) (c : Cmd) : (doJobPause s c).1.standing = s.standing := by
  unfold doJobPause
  dsimp only
  repeat' split
  all_goals simp

@[simp] theorem arm_standing (s : State) (jid at_ : Nat) : (arm s jid at_).standing = s.standing := by
  simp [arm]

@[simp] theorem doJobResume_standing (s : State) (c : Cmd) : (doJobResume s c).1.standing = s.standing := by
  unfold doJobResume
  dsimp only
  repeat' split
  all_goals simp

@[simp] theorem doJobStop_standing (s : State) (c : Cmd) : (doJobStop s c).1.standing = s.standing := by
  simp [doJobStop]

@[simp] theorem doStepReplay_standing (s : State) (c : Cmd) : (doStepReplay s c).1.standing = s.standing := by
  unfold doStepReplay
  dsimp only
  repeat' split
  all_goals simp

/-! ### Snapshot commands, restores and re-maps (R373 to R401) -/

@[simp] theorem doSnapTake_standing (s : State) (c : Cmd) : (doSnapTake s c).1.standing = s.standing := by
  unfold doSnapTake
  dsimp only
  repeat' split
  all_goals simp

@[simp] theorem doSnapRestore_standing (s : State) (c : Cmd) : (doSnapRestore s c).1.standing = s.standing := by
  unfold doSnapRestore
  dsimp only
  repeat' split
  all_goals simp

@[simp] theorem doSnapVerify_standing (s : State) (c : Cmd) : (doSnapVerify s c).1.standing = s.standing := by
  unfold doSnapVerify
  split
  · simp
  · split <;> simp

@[simp] theorem answerVerify_standing (s : State) (jid : Nat) (j : Job) (remote : List (Nat × List Byte)) :
    (answerVerify s jid j remote).standing = s.standing := by
  simp [answerVerify]

@[simp] theorem failRestore_standing (s : State) (jid item : Nat) : (failRestore s jid item).standing = s.standing := by
  simp [failRestore]

@[simp] theorem endRestore_standing (s : State) (jid : Nat) (e : CatEntry) : (endRestore s jid e).standing = s.standing := by
  unfold endRestore
  split <;> simp

@[simp] theorem runRestore_standing (s : State) (jid : Nat) (remote : List (Nat × List Byte)) :
    (runRestore s jid remote).standing = s.standing := by
  unfold runRestore
  split
  · rfl
  next j _ =>
    split
    · rfl
    · split
      · simp
      next e _ =>
        have restored := restoreItems_standing s jid j e remote
        split <;> next result => simpa [result] using restored

@[simp] theorem ownHomes_standing (s : State) (jid : Nat) : (ownHomes s jid).standing = s.standing := by
  unfold ownHomes
  dsimp only
  repeat' split
  all_goals simp

@[simp] theorem remap_standing (s : State) (jid : Nat) (remote : List (Nat × List Byte)) :
    (remap s jid remote).standing = s.standing := by
  unfold remap
  dsimp only
  repeat' split
  all_goals simp

@[simp] theorem completeSnapshot_standing (s : State) (jid : Nat) : (completeSnapshot s jid).standing = s.standing := by
  unfold completeSnapshot
  dsimp only
  repeat' split
  all_goals simp

@[simp] theorem completeCheckpoint_standing (s : State) (jid : Nat) : (completeCheckpoint s jid).standing = s.standing := by
  unfold completeCheckpoint
  dsimp only
  repeat' split
  all_goals simp

/-! ### Request, result, expert and budget commands (R423 to R425) -/

@[simp] theorem doReqAdmit_standing (s : State) (c : Cmd) : (doReqAdmit s c).1.standing = s.standing := by
  unfold doReqAdmit
  dsimp only
  repeat' split
  all_goals simp

@[simp] theorem unpress_standing (s : State) (jid e : Nat) : (unpress s jid e).standing = s.standing := by
  simp [unpress]

@[simp] theorem freePlaces_standing (s : State) (jid e : Nat) : (freePlaces s jid e).standing = s.standing := by
  simp [freePlaces]

@[simp] theorem finishEntry_standing (s : State) (jid e : Nat) : (finishEntry s jid e).standing = s.standing := by
  simp [finishEntry]

@[simp] theorem doReqCancel_standing (s : State) (c : Cmd) : (doReqCancel s c).1.standing = s.standing := by
  unfold doReqCancel
  dsimp only
  repeat' split
  all_goals simp

@[simp] theorem doReqPause_standing (s : State) (c : Cmd) : (doReqPause s c).1.standing = s.standing := by
  unfold doReqPause
  dsimp only
  repeat' split
  all_goals simp

@[simp] theorem doReqResume_standing (s : State) (c : Cmd) : (doReqResume s c).1.standing = s.standing := by
  unfold doReqResume
  dsimp only
  repeat' split
  all_goals simp

@[simp] theorem answerResumes_standing (s : State) : (answerResumes s).standing = s.standing := by
  simp [answerResumes]

@[simp] theorem notPosted_standing (s : State) (c : Cmd) (v : Serve) (step : Nat) :
    (notPosted s c v step).1.standing = s.standing := by
  unfold notPosted
  split
  · split <;> simp
  · simp

@[simp] theorem doResultRead_standing (s : State) (c : Cmd) : (doResultRead s c).1.standing = s.standing := by
  unfold doResultRead
  dsimp only
  repeat' split
  all_goals simp

@[simp] theorem doResultRelease_standing (s : State) (c : Cmd) : (doResultRelease s c).1.standing = s.standing := by
  unfold doResultRelease
  dsimp only
  repeat' split
  all_goals simp

@[simp] theorem doExpertLoad_standing (s : State) (c : Cmd) : (doExpertLoad s c).1.standing = s.standing := by
  unfold doExpertLoad
  dsimp only
  repeat' split
  all_goals simp

@[simp] theorem putExperts_standing (s : State) (jid set version : Nat) : (putExperts s jid set version).standing = s.standing := by
  unfold putExperts
  dsimp only
  repeat' split
  all_goals simp

@[simp] theorem doExpertRetire_standing (s : State) (c : Cmd) : (doExpertRetire s c).1.standing = s.standing := by
  unfold doExpertRetire
  dsimp only
  repeat' split
  all_goals simp

@[simp] theorem doBudgetSet_standing (s : State) (c : Cmd) : (doBudgetSet s c).1.standing = s.standing := by
  unfold doBudgetSet
  dsimp only
  repeat' split
  all_goals simp

/-! ### Health commands (R382, R426) -/

@[simp] theorem doHealthRead_standing (s : State) (c : Cmd) : (doHealthRead s c).1.standing = s.standing := by
  unfold doHealthRead
  dsimp only
  repeat' split
  all_goals simp

@[simp] theorem doRiskSetThreshold_standing (s : State) (c : Cmd) : (doRiskSetThreshold s c).1.standing = s.standing := by
  simp [doRiskSetThreshold]

/-! ### Fabric, key and service commands (R354, R448 to R454) -/

@[simp] theorem doFabricDiscover_standing (s : State) (c : Cmd) : (doFabricDiscover s c).1.standing = s.standing := by
  simp [doFabricDiscover]

@[simp] theorem doRouteInstall_standing (s : State) (c : Cmd) : (doRouteInstall s c).1.standing = s.standing := by
  simp [doRouteInstall]

@[simp] theorem doLinkRetrain_standing (s : State) (c : Cmd) : (doLinkRetrain s c).1.standing = s.standing := by
  unfold doLinkRetrain
  dsimp only
  repeat' split
  all_goals simp

@[simp] theorem State.scalar_standing (s : State) : s.scalar.2.standing = s.standing := by
  simp [State.scalar]

@[simp] theorem signBytes_standing (s : State) (bs : List Byte) : (signBytes s bs).2.standing = s.standing := by
  simp [signBytes]

@[simp] theorem doAttestQuote_standing (s : State) (c : Cmd) : (doAttestQuote s c).1.standing = s.standing := by
  simp [doAttestQuote]

@[simp] theorem doImageKey_standing (s : State) (c : Cmd) : (doImageKey s c).1.standing = s.standing := by
  simp [doImageKey]

@[simp] theorem doAccessEntry_standing (s : State) (c : Cmd) : (doAccessEntry s c).1.standing = s.standing := by
  simp [doAccessEntry]

@[simp] theorem wrappedRecord_standing (s : State) (recipient eph : Nat) (nonce : List Byte) (z : Nat) (pair : List Byte) :
    (wrappedRecord s recipient eph nonce z pair).2.standing = s.standing := by
  simp [wrappedRecord]

@[simp] theorem doKeyExport_standing (s : State) (c : Cmd) : (doKeyExport s c).1.standing = s.standing := by
  unfold doKeyExport
  dsimp only
  repeat' split
  all_goals simp

@[simp] theorem doKeyImport_standing (s : State) (c : Cmd) : (doKeyImport s c).1.standing = s.standing := by
  unfold doKeyImport
  dsimp only
  repeat' split
  all_goals simp

@[simp] theorem doKeyInstall_standing (s : State) (c : Cmd) : (doKeyInstall s c).1.standing = s.standing := by
  unfold doKeyInstall
  split <;> simp

@[simp] theorem doServiceQuiesce_standing (s : State) (c : Cmd) : (doServiceQuiesce s c).1.standing = s.standing := by
  unfold doServiceQuiesce
  split
  · rfl
  · split <;> simp

/-! ### Host commands (R408 to R417) -/

@[simp] theorem handle_standing (s : State) (c : Cmd) : (handle s c).1.standing = s.standing := by
  unfold handle
  split <;> simp

@[simp] theorem served_standing (s : State) (c : Cmd) : (served s c).1.standing = s.standing := by
  unfold served
  split <;> simp

@[simp] theorem perform_standing (s : State) (id : Nat) : (perform s id).standing = s.standing := by
  unfold perform
  dsimp only
  repeat' split
  all_goals simp

@[simp] theorem performAll_standing (fuel : Nat) (s : State) : (performAll fuel s).standing = s.standing := by
  induction fuel generalizing s with
  | zero => rfl
  | succ fuel ih =>
    unfold performAll
    split <;> simp [ih]

@[simp] theorem work_standing (s : State) : (work s).standing = s.standing := by
  simp [work]

@[simp] theorem collectWindow_standing (errors : List PacketErrors) (w fuel : Nat) (s : State) :
    (collectWindow errors w fuel s).standing = s.standing := by
  induction fuel generalizing s with
  | zero => rfl
  | succ fuel ih =>
    unfold collectWindow
    dsimp only
    split <;> simp [ih]

@[simp] theorem collectTo_standing (errors : List PacketErrors) (w : Nat) (s : State) :
    (collectTo errors w s).standing = s.standing := by
  simp [collectTo]

@[simp] theorem boundaryFor_standing (s : State) (dt : Nat) (c : Call) : (boundaryFor s dt c).standing = s.standing := by
  simp [boundaryFor]

@[simp] theorem writePacket_standing (s : State) (opcode : Nat) (c : Call) : (writePacket s opcode c).standing = s.standing := by
  simp [writePacket]

@[simp] theorem hostCommand_standing (s : State) (dt opcode : Nat) (c : Call) :
    (hostCommand s dt opcode c).standing = s.standing := by
  simp [hostCommand]

/-! ### The management ports (R443 to R446) -/

@[simp] theorem writePage_standing (s : State) (n off : Nat) (bs : List Byte) : (writePage s n off bs).standing = s.standing := by
  unfold writePage
  split <;> simp

@[simp] theorem writeRegion_standing (s : State) (off : Nat) (bs : List Byte) : (writeRegion s off bs).standing = s.standing := by
  simp [writeRegion]

@[simp] theorem answerConn_standing (s : State) (conn status addr : Nat) (data : List Byte) :
    (answerConn s conn status addr data).standing = s.standing := by
  simp [answerConn]

/-! ### Beats (R74) -/

@[simp] theorem beatOf_standing (s : State) (job obj : Nat) (k : Job → StepRun → Job) :
    (beatOf s job obj k).standing = s.standing := by
  unfold beatOf
  split <;> simp

/-! ### The management tick (R413) -/

@[simp] theorem postRecords_standing (s : State) (jid t : Nat) : (postRecords s jid t).standing = s.standing := by
  unfold postRecords
  split <;> simp

@[simp] theorem freeEntries_standing (s : State) (jid t : Nat) : (freeEntries s jid t).standing = s.standing := by
  simp [freeEntries]

@[simp] theorem freeVersions_standing (s : State) (jid : Nat) : (freeVersions s jid).standing = s.standing := by
  simp [freeVersions]

@[simp] theorem refillBudgets_standing (s : State) : (refillBudgets s).standing = s.standing := by
  simp [refillBudgets]

@[simp] theorem countSplit_standing (s : State) (jid : Nat) (j : Job) : (countSplit s jid j).standing = s.standing := by
  simp [countSplit]

@[simp] theorem countPressure_standing (s : State) (jid t : Nat) : (countPressure s jid t).standing = s.standing := by
  simp [countPressure]

@[simp] theorem planSteps_standing (jid t fuel : Nat) (s : State) : (planSteps jid t fuel s).standing = s.standing := by
  induction fuel generalizing s with
  | zero => rfl
  | succ fuel ih =>
    unfold planSteps
    split
    · rfl
    · dsimp only
      split
      · split <;> simp [ih]
      · rfl

@[simp] theorem armJob_standing (s : State) (jid t : Nat) : (armJob s jid t).standing = s.standing := by
  unfold armJob
  split
  · rfl
  · split
    · split
      · split <;> simp
      · split <;> simp
    · rfl

@[simp] theorem planJob_standing (s : State) (jid t : Nat) : (planJob s jid t).standing = s.standing := by
  unfold planJob
  split <;> simp

@[simp] theorem monitor_standing (s : State) (t : Nat) : (monitor s t).standing = s.standing := by
  simp [monitor]

@[simp] theorem govern_standing (s : State) (t : Nat) : (govern s t).standing = s.standing := by
  unfold govern
  dsimp only
  repeat' split
  all_goals simp

@[simp] theorem declareCounted_standing (s : State) : (declareCounted s).standing = s.standing := by
  simp [declareCounted]

@[simp] theorem eachJob_standing (s : State) {f : State → Nat → State} (h : ∀ u jid, (f u jid).standing = u.standing) :
    (eachJob s f).standing = s.standing := by
  simp [eachJob, h]

@[simp] theorem tick_standing (s0 : State) (errors : List PacketErrors) (t : Nat) : (tick s0 errors t).standing = s0.standing := by
  simp [tick]

/-! ### Firmware's own time (R281, R282) -/

@[simp] theorem expireEntry_standing (s : State) (jid e : Nat) : (expireEntry s jid e).standing = s.standing := by
  simp [expireEntry]

@[simp] theorem writeSummary_standing (s : State) (j : Job) (r : Req) (place : Nat) :
    (writeSummary s j r place).standing = s.standing := by
  simp [writeSummary]

@[simp] theorem releaseParked_standing (s : State) (jid e : Nat) : (releaseParked s jid e).standing = s.standing := by
  simp [releaseParked]

@[simp] theorem State.atFrame_standing (s : State) : s.atFrame.standing = s.standing := by
  simp [State.atFrame]

/-! ### Completions (R69) -/

@[simp] theorem setStatus_standing (s : State) (id : Nat) (st : MemStatus) : (setStatus s id st).standing = s.standing := by
  simp [setStatus]

end Sys2Proof.Machine
end

section
/-!
PROOF. The commands that keep the standing of a module.
-/
namespace Sys2Proof.Machine

/-! ### What a command's outcome keeps -/

/-- Every state in which a command ends has property `P`. -/
structure Leaves (o : Host.Outcome State Fault Refusal) (P : State → Prop) : Prop where
  holds : ∀ t, o = .next t → P t

@[simp] theorem leaves_next {P : State → Prop} (t : State) : Leaves (.next t) P ↔ P t :=
  ⟨fun h => h.holds t rfl, fun h => ⟨fun u e => by cases e; exact h⟩⟩

/-- A command's outcome keeps the standing of `s`. -/
def KeepsStanding (s : State) (o : Host.Outcome State Fault Refusal) : Prop := Leaves o (fun t => t.standing = s.standing)

@[simp] theorem keepsStanding_next (s t : State) : KeepsStanding s (.next t) ↔ t.standing = s.standing := leaves_next t

theorem keepsStanding_fault (s : State) (f : Fault) : KeepsStanding s (.fault f) := ⟨fun _ e => nomatch e⟩

theorem keepsStanding_refused (s : State) (r : Refusal) : KeepsStanding s (.refused r) := ⟨fun _ e => nomatch e⟩

/-! ### The Lath (R342 to R369) -/

theorem execSendPoint_keepsStanding (dt link : Nat) (s : State) : KeepsStanding s (execSendPoint dt link s) := by
  simp [execSendPoint]

theorem execTimingFlitSend_keepsStanding (dt link : Nat) (s : State) : KeepsStanding s (execTimingFlitSend dt link s) := by
  unfold execTimingFlitSend
  dsimp only
  split <;> simp

theorem execResendTimeout_keepsStanding (dt link seq : Nat) (s : State) : KeepsStanding s (execResendTimeout dt link seq s) := by
  simp [execResendTimeout]

theorem execScheduledFlit_keepsStanding (dt link : Nat) (f : Flit) (s : State) :
    KeepsStanding s (execScheduledFlit dt link f s) := by
  simp [execScheduledFlit]

theorem execBestEffortFlit_keepsStanding (dt link : Nat) (f : Flit) (s : State) :
    KeepsStanding s (execBestEffortFlit dt link f s) := by
  simp [execBestEffortFlit]

theorem execNoticeFlit_keepsStanding (dt link : Nat) (f : Flit) (s : State) : KeepsStanding s (execNoticeFlit dt link f s) := by
  simp [execNoticeFlit]

theorem execHelloFlit_keepsStanding (dt link : Nat) (f : Flit) (s : State) : KeepsStanding s (execHelloFlit dt link f s) := by
  simp [execHelloFlit]

theorem execLossFlit_keepsStanding (dt link : Nat) (f : Flit) (s : State) : KeepsStanding s (execLossFlit dt link f s) := by
  simp [execLossFlit]

theorem execSyncFlit_keepsStanding (dt link : Nat) (f : Flit) (s : State) : KeepsStanding s (execSyncFlit dt link f s) := by
  simp [execSyncFlit]

theorem execIdleFlit_keepsStanding (dt link : Nat) (f : Flit) (s : State) : KeepsStanding s (execIdleFlit dt link f s) := by
  simp [execIdleFlit]

theorem execFailingFlit_keepsStanding (dt : Nat) (f : BadFlit) (s : State) : KeepsStanding s (execFailingFlit dt f s) := by
  simp [execFailingFlit]

theorem execLinkSignalDetect_keepsStanding (dt link lanes : Nat) (s : State) :
    KeepsStanding s (execLinkSignalDetect dt link lanes s) := by
  unfold execLinkSignalDetect
  dsimp only
  split <;> simp

theorem execTrainingComplete_keepsStanding (dt link : Nat) (t : TrainReport) (s : State) :
    KeepsStanding s (execTrainingComplete dt link t s) := by
  unfold execTrainingComplete
  dsimp only
  split <;> simp

theorem execTrainingAttemptFail_keepsStanding (dt link lanes : Nat) (s : State) :
    KeepsStanding s (execTrainingAttemptFail dt link lanes s) := by
  unfold execTrainingAttemptFail
  dsimp only
  split <;> simp

theorem execTrainingRungRetry_keepsStanding (dt link : Nat) (s : State) : KeepsStanding s (execTrainingRungRetry dt link s) := by
  unfold execTrainingRungRetry
  dsimp only
  split <;> simp

theorem execTrainingLadderRestart_keepsStanding (dt link : Nat) (s : State) :
    KeepsStanding s (execTrainingLadderRestart dt link s) := by
  unfold execTrainingLadderRestart
  dsimp only
  split <;> simp

theorem execLinkSignalLoss_keepsStanding (dt link : Nat) (s : State) : KeepsStanding s (execLinkSignalLoss dt link s) := by
  unfold execLinkSignalLoss
  dsimp only
  split <;> simp

theorem execPartnerRetrain_keepsStanding (dt link : Nat) (s : State) : KeepsStanding s (execPartnerRetrain dt link s) := by
  unfold execPartnerRetrain
  dsimp only
  split <;> simp

theorem execPlugPresent_keepsStanding (dt cage tenthWatts : Nat) (s : State) :
    KeepsStanding s (execPlugPresent dt cage tenthWatts s) := by
  unfold execPlugPresent
  dsimp only
  split <;> simp

/-! ### The power, the operator and the start (R434 to R438, R455 to R465) -/

theorem execFeedApplied_keepsStanding (dt : Nat) (s : State) : KeepsStanding s (execFeedApplied dt s) := by
  unfold execFeedApplied
  dsimp only
  split <;> simp

theorem execEnableContactMate_keepsStanding (dt : Nat) (s : State) : KeepsStanding s (execEnableContactMate dt s) := by
  simp [execEnableContactMate]

theorem execEjectorLatchOpen_keepsStanding (dt : Nat) (s : State) : KeepsStanding s (execEjectorLatchOpen dt s) := by
  simp [execEjectorLatchOpen]

theorem execServiceButtonPress_keepsStanding (dt : Nat) (s : State) : KeepsStanding s (execServiceButtonPress dt s) := by
  unfold execServiceButtonPress
  dsimp only
  split <;> simp

theorem execServiceButtonRelease_keepsStanding (dt : Nat) (s : State) : KeepsStanding s (execServiceButtonRelease dt s) := by
  unfold execServiceButtonRelease
  dsimp only
  split <;> simp

theorem execServiceButtonHeld3s_keepsStanding (dt : Nat) (s : State) : KeepsStanding s (execServiceButtonHeld3s dt s) := by
  unfold execServiceButtonHeld3s
  dsimp only
  repeat' split
  all_goals simp

theorem execServiceButtonHeld10s_keepsStanding (dt : Nat) (s : State) : KeepsStanding s (execServiceButtonHeld10s dt s) := by
  unfold execServiceButtonHeld10s
  dsimp only
  split <;> simp

theorem execCoolantSensorChange_keepsStanding (dt inlet outlet flow : Nat) (s : State) :
    KeepsStanding s (execCoolantSensorChange dt inlet outlet flow s) := by
  simp [execCoolantSensorChange]

theorem execCoolantEmergencyTimeout_keepsStanding (dt : Nat) (s : State) :
    KeepsStanding s (execCoolantEmergencyTimeout dt s) := by
  unfold execCoolantEmergencyTimeout
  dsimp only
  repeat' split
  all_goals simp

theorem execPowerStageAlarm_keepsStanding (dt : Nat) (rail : Bool) (number : Nat) (active : Bool) (s : State) :
    KeepsStanding s (execPowerStageAlarm dt rail number active s) := by
  simp [execPowerStageAlarm]

theorem execPowerSample_keepsStanding (dt milliwatts : Nat) (s : State) : KeepsStanding s (execPowerSample dt milliwatts s) := by
  unfold execPowerSample
  dsimp only
  split <;> simp

theorem execStartRetry_keepsStanding (dt : Nat) (s : State) : KeepsStanding s (execStartRetry dt s) := by
  unfold execStartRetry
  dsimp only
  split <;> simp

theorem execQuiesceComplete_keepsStanding (dt : Nat) (s : State) : KeepsStanding s (execQuiesceComplete dt s) := by
  unfold execQuiesceComplete
  dsimp only
  split <;> simp

/-! ### The management ports (R443 to R446) -/

theorem execTlsHandshake_keepsStanding (dt port : Nat) (key : List Byte) (s : State) :
    KeepsStanding s (execTlsHandshake dt port key s) := by
  unfold execTlsHandshake
  dsimp only
  repeat' split
  all_goals simp

theorem execManagementRead_keepsStanding (dt conn : Nat) (head : List Byte) (s : State) :
    KeepsStanding s (execManagementRead dt conn head s) := by
  unfold execManagementRead
  dsimp only
  repeat' split
  all_goals simp

theorem execManagementWrite_keepsStanding (dt conn : Nat) (head data : List Byte) (s : State) :
    KeepsStanding s (execManagementWrite dt conn head data s) := by
  unfold execManagementWrite
  dsimp only
  repeat' split
  all_goals simp

/-! ### A step's life (R63, R74 to R84, R236, R257 to R263) -/

theorem execStepStart_keepsStanding (dt job : Nat) (words : List StepWords) (s : State) :
    KeepsStanding s (execStepStart dt job words s) := by
  simp [execStepStart]

theorem execStepEnd_keepsStanding (dt job : Nat) (outs : List RowOut) (s : State) :
    KeepsStanding s (execStepEnd dt job outs s) := by
  simp [execStepEnd]

theorem execSyncBeat_keepsStanding (dt job object : Nat) (s : State) : KeepsStanding s (execSyncBeat dt job object s) := by
  unfold execSyncBeat
  dsimp only
  split <;> simp

theorem execCommitBeat_keepsStanding (dt job : Nat) (s : State) : KeepsStanding s (execCommitBeat dt job s) := by
  unfold execCommitBeat
  dsimp only
  split <;> simp

theorem execFaultNotice_keepsStanding (dt : Nat) (record : List Byte) (s : State) :
    KeepsStanding s (execFaultNotice dt record s) := by
  simp [execFaultNotice]

theorem execStepAbandon_keepsStanding (dt : Nat) (job : AbandonReport) (s : State) :
    KeepsStanding s (execStepAbandon dt job s) := by
  simp [execStepAbandon]

theorem execFaultListClose_keepsStanding (dt job : Nat) (s : State) : KeepsStanding s (execFaultListClose dt job s) := by
  unfold execFaultListClose
  dsimp only
  repeat' split
  all_goals simp

theorem execScreedPacketArrival_keepsStanding (dt die : Nat) (packet : PacketWork) (s : State) :
    KeepsStanding s (execScreedPacketArrival dt die packet s) := by
  simp [execScreedPacketArrival]

theorem execBucketClose_keepsStanding (dt job : Nat) (work : BucketWork) (s : State) :
    KeepsStanding s (execBucketClose dt job work s) := by
  unfold execBucketClose
  dsimp only
  repeat' split
  all_goals simp

theorem execCloseWordSend_keepsStanding (dt job bucket : Nat) (s : State) :
    KeepsStanding s (execCloseWordSend dt job bucket s) := by
  unfold execCloseWordSend
  dsimp only
  repeat' split
  all_goals simp

theorem execCloseWordArrival_keepsStanding (dt job bucket : Nat) (word : List Byte) (s : State) :
    KeepsStanding s (execCloseWordArrival dt job bucket word s) := by
  unfold execCloseWordArrival
  dsimp only
  repeat' split
  all_goals simp

/-! ### Firmware's own time (R413, R460, R281 to R301, R379 to R390) -/

theorem execManagementTick_keepsStanding (dt : Nat) (r : TickReport) (s : State) :
    KeepsStanding s (execManagementTick dt r s) := by
  simp [execManagementTick]

theorem execGovernorRestEnd_keepsStanding (dt : Nat) (s : State) : KeepsStanding s (execGovernorRestEnd dt s) := by
  unfold execGovernorRestEnd
  dsimp only
  repeat' split
  all_goals simp

theorem execGovernorPause_keepsStanding (dt : Nat) (s : State) : KeepsStanding s (execGovernorPause dt s) := by
  unfold execGovernorPause
  dsimp only
  repeat' split
  all_goals simp

theorem execRestFramesEnd_keepsStanding (dt job : Nat) (s : State) : KeepsStanding s (execRestFramesEnd dt job s) := by
  unfold execRestFramesEnd
  dsimp only
  repeat' split
  all_goals simp

theorem execSplitChange_keepsStanding (dt job split : Nat) (s : State) : KeepsStanding s (execSplitChange dt job split s) := by
  unfold execSplitChange
  dsimp only
  split <;> simp

theorem execPressurePause_keepsStanding (dt job : Nat) (s : State) : KeepsStanding s (execPressurePause dt job s) := by
  unfold execPressurePause
  dsimp only
  repeat' split
  all_goals simp

theorem execPressureResume_keepsStanding (dt job : Nat) (s : State) : KeepsStanding s (execPressureResume dt job s) := by
  unfold execPressureResume
  dsimp only
  split <;> simp

theorem execParkLifetimeEnd_keepsStanding (dt entry : Nat) (s : State) : KeepsStanding s (execParkLifetimeEnd dt entry s) := by
  unfold execParkLifetimeEnd
  dsimp only
  repeat' split
  all_goals simp

theorem execSummaryLifetimeEnd_keepsStanding (dt entry : Nat) (s : State) :
    KeepsStanding s (execSummaryLifetimeEnd dt entry s) := by
  unfold execSummaryLifetimeEnd
  dsimp only
  repeat' split
  all_goals simp

theorem execSummaryComplete_keepsStanding (dt entry : Nat) (s : State) : KeepsStanding s (execSummaryComplete dt entry s) := by
  unfold execSummaryComplete
  dsimp only
  repeat' split
  all_goals simp

theorem execExpertWeightsInPlace_keepsStanding (dt job set version : Nat) (s : State) :
    KeepsStanding s (execExpertWeightsInPlace dt job set version s) := by
  simp [execExpertWeightsInPlace]

theorem execCheckpointIntervalEnd_keepsStanding (dt job : Nat) (s : State) :
    KeepsStanding s (execCheckpointIntervalEnd dt job s) := by
  unfold execCheckpointIntervalEnd
  dsimp only
  repeat' split
  all_goals simp

theorem execCheckpointComplete_keepsStanding (dt job : Nat) (s : State) : KeepsStanding s (execCheckpointComplete dt job s) := by
  simp [execCheckpointComplete]

theorem execSnapshotComplete_keepsStanding (dt : Nat) (job : SnapWork) (s : State) :
    KeepsStanding s (execSnapshotComplete dt job s) := by
  simp [execSnapshotComplete]

theorem execDriveFailure_keepsStanding (dt : Nat) (s : State) : KeepsStanding s (execDriveFailure dt s) := by
  simp [execDriveFailure]

theorem execMemoryZeroed_keepsStanding (dt die : Nat) (s : State) : KeepsStanding s (execMemoryZeroed dt die s) := by
  simp [execMemoryZeroed]

theorem execMemoryTemperatureChange_keepsStanding (dt ctl : Nat) (hot : Bool) (s : State) :
    KeepsStanding s (execMemoryTemperatureChange dt ctl hot s) := by
  simp [execMemoryTemperatureChange]

theorem execRemapComplete_keepsStanding (dt job : Nat) (remote : List (Nat × List Byte)) (s : State) :
    KeepsStanding s (execRemapComplete dt job remote s) := by
  unfold execRemapComplete
  dsimp only
  split <;> simp

theorem execRestoreVerified_keepsStanding (dt job : Nat) (remote : List (Nat × List Byte)) (s : State) :
    KeepsStanding s (execRestoreVerified dt job remote s) := by
  unfold execRestoreVerified
  dsimp only
  split <;> simp

theorem execContextSwitchStart_keepsStanding (dt job : Nat) (s : State) : KeepsStanding s (execContextSwitchStart dt job s) := by
  unfold execContextSwitchStart
  dsimp only
  repeat' split
  all_goals simp

theorem execContextSwitchPhase_keepsStanding (dt job die : Nat) (s : State) :
    KeepsStanding s (execContextSwitchPhase dt job die s) := by
  unfold execContextSwitchPhase
  dsimp only
  repeat' split
  all_goals simp

/-! ### Repeats and completions (R65, R69, R347) -/

theorem execRepeatRec_keepsStanding (dt tile index : Nat) (records : List (BitVec 128)) (s : State) :
    KeepsStanding s (execRepeatRec dt tile index records s) := by
  unfold execRepeatRec
  dsimp only
  split
  · split
    · simp
    · exact keepsStanding_fault ..
  · exact keepsStanding_refused ..

theorem execOperationComplete_keepsStanding (dt id : Nat) (status : MemStatus) (s : State) :
    KeepsStanding s (execOperationComplete dt id status s) := by
  unfold execOperationComplete
  dsimp only
  split <;> simp

theorem execTransferDelivery_keepsStanding (dt id : Nat) (status : MemStatus) (s : State) :
    KeepsStanding s (execTransferDelivery dt id status s) := by
  unfold execTransferDelivery
  dsimp only
  split <;> simp

/-! ### The time reference (R36) -/

theorem execReferenceAbsentTimeout_keepsStanding (dt : Nat) (s : State) : KeepsStanding s (execReferenceAbsentTimeout dt s) := by
  unfold execReferenceAbsentTimeout
  dsimp only
  split
  · rw [keepsStanding_next, ← State.after_standing s dt]
    rfl
  · simp

/-! ### Issues and host commands -/

theorem issue_keepsStanding (s : State) (dt tile : Nat) (a : Arr) (cls : Nat) (r : IssueRec) :
    KeepsStanding s (issue s dt tile a cls r) := by
  unfold issue
  dsimp only
  split
  · split
    · simp
    · exact keepsStanding_fault ..
  · exact keepsStanding_refused ..

/-- Every issue row runs the one operation of issues. -/
theorem exec_of_issueOf {i : Instr} {dt tile cls : Nat} {a : Arr} {r : IssueRec} (h : issueOf i = some (dt, tile, a, cls, r))
    (s : State) : exec i s = issue s dt tile a cls r := by
  cases i <;> simp only [issueOf, Option.some.injEq, Prod.mk.injEq, reduceCtorEq] at h <;>
    obtain ⟨rfl, rfl, rfl, rfl, rfl⟩ := h <;> rfl

/-- Every host row runs the one operation of host commands, whatever its packet. -/
theorem exec_of_hostRow {i : Instr} {dt op : Nat} {c : Call} (h : hostRow i = some (dt, op, c)) (s : State) :
    exec i s = .next (hostCommand s dt op c) := by
  cases i <;> simp only [hostRow, Option.some.injEq, Prod.mk.injEq, reduceCtorEq] at h <;>
    obtain ⟨rfl, rfl, rfl⟩ := h <;> rfl

/-! ### Every command but those of the power, the start and time -/

/-- The commands that can change a module's standing: those that stop the power, end a phase of the start, and tell time. -/
def changesStanding : Instr → Bool
  | .feedRemoved .. | .feedVoltageChange .. | .feedOvervoltageOpen .. | .feedUndervoltageTurnOff .. => true
  | .hotswapOvercurrent .. | .enableContactBreak .. | .hubThermalTrip .. => true
  | .startPhaseComplete .. | .startPhaseTimeout .. | .hubWatchdogTimeout .. | .dieLoss .. => true
  | .frameWord .. | .timingFlit .. | .plumbLock .. => true
  | .holdoverEntry .. | .holdoverRelock .. | .holdoverDeadline .. => true
  | _ => false

theorem exec_keepsStanding {i : Instr} (h : changesStanding i = false) (s : State) : KeepsStanding s (exec i s) := by
  cases hi : issueOf i with
  | some q => exact exec_of_issueOf hi s ▸ issue_keepsStanding ..
  | none =>
    cases hh : hostRow i with
    | some q => simp [exec_of_hostRow hh]
    | none =>
      cases i with
      | feedApplied => exact execFeedApplied_keepsStanding ..
      | enableContactMate => exact execEnableContactMate_keepsStanding ..
      | ejectorLatchOpen => exact execEjectorLatchOpen_keepsStanding ..
      | serviceButtonPress => exact execServiceButtonPress_keepsStanding ..
      | serviceButtonRelease => exact execServiceButtonRelease_keepsStanding ..
      | serviceButtonHeld3s => exact execServiceButtonHeld3s_keepsStanding ..
      | serviceButtonHeld10s => exact execServiceButtonHeld10s_keepsStanding ..
      | coolantSensorChange => exact execCoolantSensorChange_keepsStanding ..
      | coolantEmergencyTimeout => exact execCoolantEmergencyTimeout_keepsStanding ..
      | powerStageAlarm => exact execPowerStageAlarm_keepsStanding ..
      | powerSample => exact execPowerSample_keepsStanding ..
      | startRetry => exact execStartRetry_keepsStanding ..
      | referenceAbsentTimeout => exact execReferenceAbsentTimeout_keepsStanding ..
      | managementTick => exact execManagementTick_keepsStanding ..
      | governorRestEnd => exact execGovernorRestEnd_keepsStanding ..
      | governorPause => exact execGovernorPause_keepsStanding ..
      | restFramesEnd => exact execRestFramesEnd_keepsStanding ..
      | splitChange => exact execSplitChange_keepsStanding ..
      | pressurePause => exact execPressurePause_keepsStanding ..
      | pressureResume => exact execPressureResume_keepsStanding ..
      | parkLifetimeEnd => exact execParkLifetimeEnd_keepsStanding ..
      | summaryLifetimeEnd => exact execSummaryLifetimeEnd_keepsStanding ..
      | summaryComplete => exact execSummaryComplete_keepsStanding ..
      | checkpointIntervalEnd => exact execCheckpointIntervalEnd_keepsStanding ..
      | checkpointComplete => exact execCheckpointComplete_keepsStanding ..
      | memoryZeroed => exact execMemoryZeroed_keepsStanding ..
      | driveFailure => exact execDriveFailure_keepsStanding ..
      | tlsHandshake => exact execTlsHandshake_keepsStanding ..
      | managementRead => exact execManagementRead_keepsStanding ..
      | managementWrite => exact execManagementWrite_keepsStanding ..
      | quiesceComplete => exact execQuiesceComplete_keepsStanding ..
      | stepStart => exact execStepStart_keepsStanding ..
      | stepEnd => exact execStepEnd_keepsStanding ..
      | repeatRec => exact execRepeatRec_keepsStanding ..
      | operationComplete => exact execOperationComplete_keepsStanding ..
      | transferDelivery => exact execTransferDelivery_keepsStanding ..
      | syncBeat => exact execSyncBeat_keepsStanding ..
      | commitBeat => exact execCommitBeat_keepsStanding ..
      | faultNotice => exact execFaultNotice_keepsStanding ..
      | stepAbandon => exact execStepAbandon_keepsStanding ..
      | faultListClose => exact execFaultListClose_keepsStanding ..
      | screedPacketArrival => exact execScreedPacketArrival_keepsStanding ..
      | bucketClose => exact execBucketClose_keepsStanding ..
      | closeWordSend => exact execCloseWordSend_keepsStanding ..
      | closeWordArrival => exact execCloseWordArrival_keepsStanding ..
      | sendPoint => exact execSendPoint_keepsStanding ..
      | timingFlitSend => exact execTimingFlitSend_keepsStanding ..
      | scheduledFlit => exact execScheduledFlit_keepsStanding ..
      | bestEffortFlit => exact execBestEffortFlit_keepsStanding ..
      | noticeFlit => exact execNoticeFlit_keepsStanding ..
      | helloFlit => exact execHelloFlit_keepsStanding ..
      | lossFlit => exact execLossFlit_keepsStanding ..
      | syncFlit => exact execSyncFlit_keepsStanding ..
      | idleFlit => exact execIdleFlit_keepsStanding ..
      | resendTimeout => exact execResendTimeout_keepsStanding ..
      | linkSignalDetect => exact execLinkSignalDetect_keepsStanding ..
      | trainingComplete => exact execTrainingComplete_keepsStanding ..
      | trainingAttemptFail => exact execTrainingAttemptFail_keepsStanding ..
      | trainingRungRetry => exact execTrainingRungRetry_keepsStanding ..
      | trainingLadderRestart => exact execTrainingLadderRestart_keepsStanding ..
      | linkSignalLoss => exact execLinkSignalLoss_keepsStanding ..
      | plugPresent => exact execPlugPresent_keepsStanding ..
      | remapComplete => exact execRemapComplete_keepsStanding ..
      | snapshotComplete => exact execSnapshotComplete_keepsStanding ..
      | contextSwitchPhase => exact execContextSwitchPhase_keepsStanding ..
      | contextSwitchStart => exact execContextSwitchStart_keepsStanding ..
      | failingFlit => exact execFailingFlit_keepsStanding ..
      | partnerRetrain => exact execPartnerRetrain_keepsStanding ..
      | memoryTemperatureChange => exact execMemoryTemperatureChange_keepsStanding ..
      | restoreVerified => exact execRestoreVerified_keepsStanding ..
      | expertWeightsInPlace => exact execExpertWeightsInPlace_keepsStanding ..
      | _ => simp [issueOf, hostRow, changesStanding] at hi hh h

end Sys2Proof.Machine
end

section
/-!
PROOF. A module that is LOCKED keeps its source (R32): O10.
-/
namespace Sys2Proof.Machine

/-! ### LOCKED, and on which source -/

/-- A module of standing `b` is LOCKED only where it was LOCKED in standing `a`, and then follows the same source. -/
structure Standing.LockedFrom (a b : Standing) : Prop where
  locked : b.time = .locked → a.time = .locked
  source : b.time = .locked → b.source = a.source

@[simp] theorem Standing.lockedFrom_refl (a : Standing) : a.LockedFrom a := ⟨id, fun _ => rfl⟩

theorem Standing.lockedFrom_of_ne {a b : Standing} (h : b.time ≠ .locked) : a.LockedFrom b :=
  ⟨fun hb => absurd hb h, fun hb => absurd hb h⟩

/-! ### The start and the power (R7, R438) -/

section
variable {a : Standing} {s : State}

@[simp] theorem volatileOff_time (s : State) : s.volatileOff.standing.time = .unlocked := rfl

theorem volatileOff_lockedFrom (s : State) : a.LockedFrom s.volatileOff.standing :=
  Standing.lockedFrom_of_ne (by simp)

theorem powerOff_lockedFrom (s : State) (latched : Bool) : a.LockedFrom (s.powerOff latched).standing := by
  simp [State.powerOff, volatileOff_lockedFrom]

theorem turnOff_lockedFrom (h : a.LockedFrom s.standing) : a.LockedFrom (turnOff s).standing := by
  unfold turnOff
  split
  · exact powerOff_lockedFrom s _
  · exact h

theorem failStart_lockedFrom (h : a.LockedFrom s.standing) : a.LockedFrom (failStart s).standing := by
  unfold failStart
  dsimp only
  split
  · simpa using h
  · simp [volatileOff_lockedFrom]

theorem loseAtStart_lockedFrom (h : a.LockedFrom s.standing) (dies : List Nat) : a.LockedFrom (loseAtStart s dies).standing := by
  unfold loseAtStart
  dsimp only
  split
  · exact failStart_lockedFrom (by simpa using h)
  · simpa using h

/-- A start that has lost dies goes on to its next phase, unless it has failed. -/
theorem goOn_lockedFrom (h : a.LockedFrom s.standing) (dies : List Nat) (ended next : Nat) :
    a.LockedFrom (if (loseAtStart s dies).starting = true then enterPhase (loseAtStart s dies) ended next
      else loseAtStart s dies).standing := by
  simp [loseAtStart_lockedFrom h]

theorem leaveP4_lockedFrom (h : a.LockedFrom s.standing) (ended : Nat) : a.LockedFrom (leaveP4 s ended).standing := by
  unfold leaveP4
  dsimp only
  split
  · simpa using h
  · exact goOn_lockedFrom h _ _ _

theorem enterP7_lockedFrom (h : a.LockedFrom s.standing) : a.LockedFrom (enterP7 s).standing := by
  unfold enterP7
  dsimp only
  split
  · simpa using Standing.lockedFrom_of_ne (by simp [State.standing])
  · simpa using h

theorem endPhase0_lockedFrom (h : a.LockedFrom s.standing) (r : PhaseReport) : a.LockedFrom (endPhase s 0 r).standing := by
  simp only [endPhase]
  split <;> simpa using h

theorem endPhase1_lockedFrom (h : a.LockedFrom s.standing) (r : PhaseReport) : a.LockedFrom (endPhase s 1 r).standing := by
  simp only [endPhase]
  split <;> simpa using h

theorem endPhase2_lockedFrom (h : a.LockedFrom s.standing) (r : PhaseReport) : a.LockedFrom (endPhase s 2 r).standing := by
  simp only [endPhase]
  split
  · exact failStart_lockedFrom h
  · split
    · simp [volatileOff_lockedFrom]
    · simpa using h

theorem endPhase3_lockedFrom (h : a.LockedFrom s.standing) (r : PhaseReport) : a.LockedFrom (endPhase s 3 r).standing := by
  have lost := loseAtStart_lockedFrom h (missingDies s r.dies)
  simp only [endPhase]
  split
  · split
    · exact leaveP4_lockedFrom lost 3
    · simpa using lost
  · exact lost

theorem endPhase4_lockedFrom (h : a.LockedFrom s.standing) (r : PhaseReport) : a.LockedFrom (endPhase s 4 r).standing := by
  simp only [endPhase]
  split
  · exact failStart_lockedFrom h
  · have lost := loseAtStart_lockedFrom (s := { s with store := { s.store with
      training := some (r.temps.foldl (fun (m : SMap Nat) t => SMap.set m t.1 t.2) []), version := some s.firmware } })
      (by simpa using h) (missingDies s r.dies)
    split
    · exact leaveP4_lockedFrom lost 4
    · exact lost

theorem endPhase5_lockedFrom (h : a.LockedFrom s.standing) (r : PhaseReport) : a.LockedFrom (endPhase s 5 r).standing :=
  goOn_lockedFrom (by simpa using h) _ _ _

theorem endPhase_lockedFrom (h : a.LockedFrom s.standing) (n : Nat) (r : PhaseReport) :
    a.LockedFrom (endPhase s n r).standing := by
  match n with
  | 0 => exact endPhase0_lockedFrom h r
  | 1 => exact endPhase1_lockedFrom h r
  | 2 => exact endPhase2_lockedFrom h r
  | 3 => exact endPhase3_lockedFrom h r
  | 4 => exact endPhase4_lockedFrom h r
  | 5 => exact endPhase5_lockedFrom h r
  | 6 =>
    simp only [endPhase]
    split
    · exact enterP7_lockedFrom h
    · exact h
  | 7 =>
    simp only [endPhase]
    split <;> simpa using h
  | n + 8 =>
    simp only [endPhase]
    split <;> simpa using h

theorem timeoutPhase_lockedFrom (h : a.LockedFrom s.standing) (n die : Nat) : a.LockedFrom (timeoutPhase s n die).standing := by
  unfold timeoutPhase
  split
  case h_2 | h_3 => exact loseAtStart_lockedFrom h [die]
  case h_4 =>
    split
    · exact failStart_lockedFrom h
    · exact loseAtStart_lockedFrom h [die]
  case h_5 => exact enterP7_lockedFrom h
  case h_8 => exact failStart_lockedFrom h
  all_goals simpa using h

end

/-! ### Commands that keep the lock or drop it -/

/-- After a command's outcome the module is LOCKED only where it was in `s`, and on the same source. -/
def KeepsLock (s : State) (o : Host.Outcome State Fault Refusal) : Prop := Leaves o (fun t => s.standing.LockedFrom t.standing)

@[simp] theorem keepsLock_next (s t : State) : KeepsLock s (.next t) ↔ s.standing.LockedFrom t.standing := leaves_next t

theorem KeepsStanding.keepsLock {s : State} {o : Host.Outcome State Fault Refusal} (h : KeepsStanding s o) : KeepsLock s o := by
  refine ⟨fun t ht => ?_⟩
  rw [h.holds t ht]
  exact Standing.lockedFrom_refl _

theorem execFeedRemoved_keepsLock (dt : Nat) (s : State) : KeepsLock s (execFeedRemoved dt s) := by
  simp [execFeedRemoved, powerOff_lockedFrom]

theorem execFeedVoltageChange_keepsLock (dt millivolts : Nat) (s : State) :
    KeepsLock s (execFeedVoltageChange dt millivolts s) := by
  simp only [execFeedVoltageChange, keepsLock_next]
  split
  · exact turnOff_lockedFrom (by simp)
  · simp

theorem execFeedOvervoltageOpen_keepsLock (dt : Nat) (s : State) : KeepsLock s (execFeedOvervoltageOpen dt s) := by
  unfold execFeedOvervoltageOpen
  dsimp only
  split
  · simp
  · split
    · simp [turnOff_lockedFrom]
    · split <;> simp [turnOff_lockedFrom]

theorem execFeedUndervoltageTurnOff_keepsLock (dt : Nat) (s : State) : KeepsLock s (execFeedUndervoltageTurnOff dt s) := by
  unfold execFeedUndervoltageTurnOff
  dsimp only
  split
  · simp
  · split <;> simp [turnOff_lockedFrom]

theorem execHotswapOvercurrent_keepsLock (dt : Nat) (s : State) : KeepsLock s (execHotswapOvercurrent dt s) := by
  simp [execHotswapOvercurrent, turnOff_lockedFrom]

theorem execEnableContactBreak_keepsLock (dt : Nat) (s : State) : KeepsLock s (execEnableContactBreak dt s) := by
  simp [execEnableContactBreak, turnOff_lockedFrom]

theorem execHubThermalTrip_keepsLock (dt : Nat) (s : State) : KeepsLock s (execHubThermalTrip dt s) := by
  simp [execHubThermalTrip, turnOff_lockedFrom]

theorem execStartPhaseComplete_keepsLock (dt : Nat) (r : PhaseReport) (s : State) :
    KeepsLock s (execStartPhaseComplete dt r s) := by
  unfold execStartPhaseComplete
  dsimp only
  split
  · rw [keepsLock_next]
    split
    · exact endPhase_lockedFrom (by simp) ..
    · simp
  · simp

theorem execStartPhaseTimeout_keepsLock (dt die : Nat) (s : State) : KeepsLock s (execStartPhaseTimeout dt die s) := by
  unfold execStartPhaseTimeout
  dsimp only
  split
  · split <;> simp [timeoutPhase_lockedFrom]
  · simp

theorem execHubWatchdogTimeout_keepsLock (dt : Nat) (s : State) : KeepsLock s (execHubWatchdogTimeout dt s) := by
  unfold execHubWatchdogTimeout
  dsimp only
  split
  · rw [keepsLock_next]
    split <;> simp [failStart_lockedFrom]
  · simp

theorem execDieLoss_keepsLock (dt die cause : Nat) (s : State) : KeepsLock s (execDieLoss dt die cause s) := by
  unfold execDieLoss
  dsimp only
  split
  · simp
  · simp
  · rw [keepsLock_next]
    split
    · exact loseAtStart_lockedFrom (by simp) [die]
    · simp
  · simp

/-! ### The time commands -/

theorem lockedMark_source (p : Plumb) (frame own : Nat) (err : Int) (partner : Option PartnerTime) :
    (lockedMark p frame own err partner).source = p.source := by
  unfold lockedMark
  extract_lets x gap hop15 p1
  split
  · split
    · rfl
    · split <;> rfl
  · rfl

/-- A mark keeps the source of a LOCKED module, and locks none. -/
theorem mark_lockedFrom {a : Standing} {s : State} (h : a.LockedFrom s.standing) (source frame own : Nat) (err : Int)
    (partner : Option PartnerTime) : a.LockedFrom (mark s source frame own err partner).standing := by
  unfold mark
  dsimp only
  split
  case h_1 | h_2 =>
    split
    · exact Standing.lockedFrom_of_ne (by simp [State.standing])
    · exact h
  case h_3 acquiring =>
    split
    · exact Standing.lockedFrom_of_ne (by simp [State.standing, acquiring])
    · exact h
  case h_4 locked =>
    split
    · exact ⟨fun _ => h.locked locked, fun _ => (lockedMark_source ..).trans (h.source locked)⟩
    · exact h
  case h_5 holdover =>
    have apart : s.standing.time ≠ .locked := by simp [State.standing, holdover]
    repeat' split
    all_goals exact Standing.lockedFrom_of_ne apart
  case h_6 => exact h

theorem execFrameWord_keepsLock (dt : Nat) (word : BitVec 64) (err : Int) (s : State) :
    KeepsLock s (execFrameWord dt word err s) := by
  unfold execFrameWord
  dsimp only
  split
  · rw [keepsLock_next]
    refine mark_lockedFrom ?_ ..
    have seen (x : TimeSource) : ({ s.after dt with plumb := { (s.after dt).plumb with connector := x } } : State).standing =
        (s.after dt).standing := rfl
    simp [seen]
  · simp

theorem execTimingFlit_keepsLock (dt link : Nat) (f : Flit) (err : Int) (s : State) :
    KeepsLock s (execTimingFlit dt link f err s) := by
  unfold execTimingFlit
  dsimp only
  split
  · split
    · rw [keepsLock_next, reclass_standing]
      exact mark_lockedFrom (by simp) ..
    · simp
  · simp

theorem execHoldoverEntry_keepsLock (dt : Nat) (s : State) : KeepsLock s (execHoldoverEntry dt s) := by
  unfold execHoldoverEntry
  dsimp only
  split
  · rw [keepsLock_next, reclass_standing]
    exact Standing.lockedFrom_of_ne (by simp [State.standing])
  · simp

theorem execHoldoverDeadline_keepsLock (dt : Nat) (s : State) : KeepsLock s (execHoldoverDeadline dt s) := by
  unfold execHoldoverDeadline
  dsimp only
  split
  · rw [keepsLock_next, reclass_standing, fencePlane_standing]
    exact Standing.lockedFrom_of_ne (by simp [State.standing])
  · simp

theorem after_locked {s : State} (h : s.plumb.state = .locked) (dt : Nat) : (s.after dt).plumb.state = .locked := by
  rw [← State.standing_time, State.after_standing, State.standing_time, h]

/-- A module that is LOCKED is in neither ACQUIRING nor HOLDOVER, where a source is taken (R35, R38). -/
theorem execPlumbLock_keepsStanding {s : State} (h : s.plumb.state = .locked) (dt : Nat) :
    KeepsStanding s (execPlumbLock dt s) := by
  simp [execPlumbLock, after_locked h]

theorem execHoldoverRelock_keepsStanding {s : State} (h : s.plumb.state = .locked) (dt : Nat) :
    KeepsStanding s (execHoldoverRelock dt s) := by
  simp [execHoldoverRelock, after_locked h]

/-! ### Every command -/

/-- A module that is LOCKED keeps the source it follows as long as it is LOCKED, whatever the command. -/
theorem exec_keepsLock {s : State} (locked : s.plumb.state = .locked) (i : Instr) : KeepsLock s (exec i s) := by
  cases h : changesStanding i with
  | false => exact (exec_keepsStanding h s).keepsLock
  | true =>
    cases i with
    | feedRemoved => exact execFeedRemoved_keepsLock ..
    | feedVoltageChange => exact execFeedVoltageChange_keepsLock ..
    | feedOvervoltageOpen => exact execFeedOvervoltageOpen_keepsLock ..
    | feedUndervoltageTurnOff => exact execFeedUndervoltageTurnOff_keepsLock ..
    | hotswapOvercurrent => exact execHotswapOvercurrent_keepsLock ..
    | enableContactBreak => exact execEnableContactBreak_keepsLock ..
    | hubThermalTrip => exact execHubThermalTrip_keepsLock ..
    | startPhaseComplete => exact execStartPhaseComplete_keepsLock ..
    | startPhaseTimeout => exact execStartPhaseTimeout_keepsLock ..
    | hubWatchdogTimeout => exact execHubWatchdogTimeout_keepsLock ..
    | dieLoss => exact execDieLoss_keepsLock ..
    | frameWord => exact execFrameWord_keepsLock ..
    | timingFlit => exact execTimingFlit_keepsLock ..
    | plumbLock => exact (execPlumbLock_keepsStanding locked _).keepsLock
    | holdoverEntry => exact execHoldoverEntry_keepsLock ..
    | holdoverRelock => exact (execHoldoverRelock_keepsStanding locked _).keepsLock
    | holdoverDeadline => exact execHoldoverDeadline_keepsLock ..
    | _ => cases h

/-- Settles O10: a step takes the front command, and no command changes the source of a module that stays LOCKED. -/
theorem sourceKept : Obligations.SourceKept := by
  unfold Obligations.SourceKept
  intro s t locked stepped still
  unfold step at stepped
  split at stepped
  next => cases stepped; rfl
  next c rest _ => exact (exec_keepsLock (s := s.popped rest) locked c |>.holds t stepped).source still

end Sys2Proof.Machine
end

section
/-!
PROOF. Holdover and the fence (R37, R40): the refutation of O12.
-/
namespace Sys2Proof.Machine

/-! ### The fence of the Plumb plane completes a PART_DESTROY -/

/-- A module in HOLDOVER until frame 6, in cycle 1,000 of frame 0. Job 9, the only one of partition 0, is in a step of eight frames, at
whose end a PART_DESTROY at work stops it (R334) and takes the partition's apertures in hub memory (R335, R430); one byte of the
staging aperture is not zero. -/
def destroyingInHoldover : State :=
  { now := 1000
    start := { stage := .running }
    plumb := { state := .holdover, deadline := 6 }
    parts := [(0, { state := .closing })]
    jobs := [(9, { part := 0, handle := 0, body := 0, kind := 1, frames := 8, run := some { number := 0, start := 0, frames := 8 },
                   stop := some { frame := 0 } })]
    cmds := [{ id := 0, opcode := 0x0102, call := { win := 0, partition := 0, params := List.replicate 48 0 }, collected := 0,
               keys := [.part 0], started := true }]
    hub := [(stagingAt 0, 1)] }

/-- The byte stands when the deadline comes. -/
theorem destroyingInHoldover_hub_at_deadline :
    (((destroyingInHoldover.after 0).settle (65536 * (destroyingInHoldover.after 0).plumb.deadline)).reach
      (65536 * (destroyingInHoldover.after 0).plumb.deadline)).hub = [(stagingAt 0, 1)] := by decide +kernel

/-- The fence ends the step and so the job, which was the last of its partition: PART_DESTROY completes there and then, and
zeroes the aperture. -/
theorem destroyingInHoldover_hub_after_fence :
    ∃ t, exec (.holdoverDeadline 0) destroyingInHoldover = .next t ∧ t.hub = [] := ⟨_, rfl, by decide +kernel⟩

/-- Refutes O12: where a PART_DESTROY waits for the end of a job's step, the fence at the deadline ends the job and the command zeroes
the partition's staging aperture, so hub memory is not as it was. -/
theorem not_holdoverFence : ¬ Obligations.HoldoverFence := by
  intro h
  obtain ⟨-, deadline⟩ := h destroyingInHoldover _ _ 0 0 _ rfl
  obtain ⟨t, answered, -, -, -, -, -, -, -, hub, -⟩ := deadline rfl (by decide +kernel) (by decide +kernel) rfl
  obtain ⟨t', answered', zeroed⟩ := destroyingInHoldover_hub_after_fence
  obtain rfl : t = t' := by simpa [answered] using answered'
  simp [destroyingInHoldover_hub_at_deadline, zeroed] at hub

end Sys2Proof.Machine
end

section
/-!
PROOF. Each loss of power leaves the module off with nothing volatile (R7, R380, R457, R462, R465, R467), and a start marks lost the
places that the module itself held (R380): O4.
-/
namespace Sys2Proof.Machine

/-! ### The start log (R438) -/

theorem State.starting_eq_isPhase (s : State) : s.starting = s.start.stage.isPhase := by
  unfold State.starting Stage.isPhase
  cases s.start.stage <;> rfl

/-- The start just entered stands last in the log, however many earlier ones are dropped. -/
theorem logStart_last_outcome (s : State) (outcome : Nat) :
    (logStart s outcome).store.log.getLast?.map (fun e => e.outcome) = some outcome := by
  change (List.getLast? (List.drop _ (_ ++ [_]))).map _ = _
  rw [List.getLast?_drop, if_neg (by simp), List.getLast?_concat]
  rfl

/-! ### The power goes (R7, R380, R454) -/

/-- What entering a start in the log leaves alone, a power off finds as it was, whether or not it cuts off a start. -/
theorem cutOff_keeps {α : Type} (f : State → α) {s : State} (same : f (logStart s 5) = f s) :
    f (if s.starting then logStart s 5 else s) = f s := by
  rw [apply_ite f, same, ite_self]

theorem powerOff_log (s : State) (latched : Bool) :
    (s.powerOff latched).store.log = if s.start.stage.isPhase then (logStart s 5).store.log else s.store.log := by
  rw [← s.starting_eq_isPhase]
  exact apply_ite (fun x : State => x.store.log) ..

/-- Of the store, a power off changes the start log alone. -/
theorem powerOff_store (s : State) (latched : Bool) :
    (s.powerOff latched).store = { s.store with log := (s.powerOff latched).store.log } :=
  cutOff_keeps (fun w => { w.store with log := (s.powerOff latched).store.log }) rfl

/-- A power off leaves the module without power, whatever is written to its sensors and contacts with it. -/
theorem powerOff_turnedOff (s : State) (latched : Bool) {p : Power} (path : p.path = false) (samples : p.samples = [])
    (resting : p.resting = []) : TurnedOff s { s.powerOff latched with power := p } := by
  have uncut (idle : s.start.stage.isPhase = false) : (s.powerOff latched).store.log = s.store.log := by
    rw [powerOff_log, idle, if_neg Bool.false_ne_true]
  have cut (starting : s.start.stage.isPhase = true) :
      (s.powerOff latched).store.log.getLast?.map (fun e => e.outcome) = some 5 := by
    rw [powerOff_log, if_pos starting, logStart_last_outcome]
  exact ⟨rfl, path, samples, resting, rfl, rfl, rfl, rfl, rfl, rfl, rfl, rfl, rfl, rfl, rfl, rfl, rfl, rfl, rfl, rfl, rfl, rfl, rfl,
    rfl, cutOff_keeps (fun w => storedParts w.parts) rfl, powerOff_store s latched, uncut, cut, cutOff_keeps State.catalogue rfl,
    cutOff_keeps (fun w => { w.drive with present := false }) rfl, cutOff_keeps State.number rfl, cutOff_keeps State.serial rfl,
    cutOff_keeps State.idHash rfl, cutOff_keeps State.variantB rfl, cutOff_keeps State.pending rfl⟩

theorem powered_of_not_off {s : State} (on : s.start.stage ≠ .off) : s.powered = true := bne_iff_ne.mpr on

theorem not_unpowered {s : State} (on : s.start.stage ≠ .off) : ¬(!s.powered) = true := by
  simpa using powered_of_not_off on

/-- A turn-off has the effect of feed removal (R457): a feed of 10 V or more latches it. -/
theorem turnOff_eq_powerOff {s : State} (on : s.start.stage ≠ .off) :
    turnOff s = s.powerOff (decide (10000 ≤ s.power.millivolts)) := if_pos (powered_of_not_off on)

theorem turnOff_turnedOff {s : State} (on : s.start.stage ≠ .off) :
    TurnedOff s (turnOff s) ∧ (turnOff s).power.latched = decide (10000 ≤ s.power.millivolts) := by
  have off (latched : Bool) := powerOff_turnedOff s latched (p := (s.powerOff latched).power) rfl rfl rfl
  rw [turnOff_eq_powerOff on]
  exact ⟨off _, rfl⟩

/-! ### The rows of the feed and the turn-offs (R7, R457, R462, R465, R467) -/

/-- A feed above 65 V has not fallen below 10 V. -/
theorem latches_above_65V {mv : Nat} (high : 65000 < mv) : decide (10000 ≤ mv) = true :=
  decide_eq_true (Nat.le_trans (by decide) (Nat.le_of_lt high))

theorem feedRemoved_turnsOff (s : State) (dt : Nat) : Answers (.feedRemoved dt) s fun t =>
    TurnedOff (s.after dt) t ∧ t.power.millivolts = 0 ∧ t.power.latched = false :=
  ⟨_, rfl, powerOff_turnedOff (s.after dt) false rfl rfl rfl, rfl, rfl⟩

/-- Above 65 V the hot-swap stage acts at once; what is kept of the module has nothing to do with any reading. -/
theorem feedVoltageChange_turnsOff (s : State) (dt : Nat) {mv : Nat} (high : 65000 < mv) (on : (s.after dt).start.stage ≠ .off) :
    Answers (.feedVoltageChange dt mv) s fun t =>
      TurnedOff { s.after dt with power := { (s.after dt).power with millivolts := mv } } t ∧ t.power.latched = true := by
  refine ⟨_, congrArg Host.Outcome.next (if_pos high), ?_⟩
  rw [← latches_above_65V high, State.sense, if_neg on]
  exact turnOff_turnedOff on

theorem feedOvervoltageOpen_turnsOff_at_once (s : State) (dt : Nat) (on : (s.after dt).start.stage ≠ .off)
    (high : 65000 < (s.after dt).power.millivolts) : Answers (.feedOvervoltageOpen dt) s fun t =>
      TurnedOff (s.after dt) t ∧ t.power.latched = true := by
  rw [← latches_above_65V high]
  exact ⟨_, (if_neg (not_unpowered on)).trans (if_pos high), turnOff_turnedOff on⟩

/-- Above 60 V, the stage acts once that has lasted 1 ms. -/
theorem feedOvervoltageOpen_exec (s : State) (dt : Nat) {x : Nat} (on : (s.after dt).start.stage ≠ .off)
    (within : (s.after dt).power.millivolts ≤ 65000) (high : (s.after dt).power.overSince = some x) :
    exec (.feedOvervoltageOpen dt) s = .next (turnOff ((s.after dt).upto (max (s.after dt).now (x + 2500000)))) := by
  refine (if_neg (not_unpowered on)).trans ((if_neg (Nat.not_lt.mpr within)).trans ?_)
  rw [high]
  rfl

/-- Below 44 V, the rails are turned off once that has lasted more than 0.5 ms. -/
theorem feedUndervoltageTurnOff_exec (s : State) (dt : Nat) {x : Nat} (on : (s.after dt).start.stage ≠ .off)
    (under : (s.after dt).power.underSince = some x) :
    exec (.feedUndervoltageTurnOff dt) s = .next (turnOff ((s.after dt).upto (max (s.after dt).now (x + 1250001)))) := by
  refine (if_neg (not_unpowered on)).trans ?_
  rw [under]
  rfl

theorem enableContactBreak_turnsOff (s : State) (dt : Nat) (on : (s.after dt).start.stage ≠ .off) :
    Answers (.enableContactBreak dt) s fun t => TurnedOff (s.after dt) t ∧ t.power.enable = false := by
  refine ⟨_, rfl, ?_⟩
  rw [turnOff_eq_powerOff on]
  exact ⟨powerOff_turnedOff _ _ rfl rfl rfl, rfl⟩

/-! ### A start begins (R380, R432, R438) -/

/-- To mark a place lost unless it is remote is to mark it lost where it is the module's own. -/
theorem Place.lost_or_own (h : Place) :
    { h with lost := h.lost || !h.remote } = if h.remote then h else { h with lost := true } := by
  obtain ⟨part, holder, remote, lost, off, len⟩ := h
  cases remote <;> simp

theorem beginStart_placesLost {u s : State} (same : s.catalogue = u.catalogue) (update held : Bool) :
    PlacesLost u (beginStart s update held) := by
  rw [PlacesLost, ← same, ← funext Place.lost_or_own]
  rfl

theorem feedApplied_marksLost (s : State) (dt : Nat) (off : (s.after dt).start.stage = .off)
    (free : (s.after dt).power.latched = false) : Answers (.feedApplied dt) s fun t =>
      PlacesLost (s.after dt) t ∧ t.drive = (s.after dt).drive := by
  have applies : (!(s.after dt).powered && !(s.after dt).power.latched) = true := by rw [State.powered, off, free]; rfl
  exact ⟨_, if_pos applies, beginStart_placesLost rfl .., rfl⟩

theorem startRetry_marksLost (s : State) (dt : Nat) {v : State} (retry : (s.after dt).start.stage = .retry)
    (due : v = (s.after dt).upto ((s.after dt).start.phaseStart + second)) : Answers (.startRetry dt) s fun t =>
      PlacesLost v t ∧ t.drive = v.drive := by
  refine ⟨beginStart v false v.start.heldFromFeed, ?_, beginStart_placesLost rfl .., rfl⟩
  subst due
  exact if_pos retry

/-- Settles O4: each turn-off ends in a power off, which keeps the catalogue, the drive and, but for the start log, the store; each
start begins by marking lost the places that were the module's own. -/
theorem turnOffs : Obligations.TurnOffs := by
  unfold Obligations.TurnOffs
  rintro s _ dt rfl
  refine ⟨feedRemoved_turnsOff s dt, ?_, ?_, ?_, feedOvervoltageOpen_turnsOff_at_once s dt, ?_, ?_,
    enableContactBreak_turnsOff s dt, feedApplied_marksLost s dt, fun v => startRetry_marksLost s dt⟩
  · rintro mv _ high on rfl
    exact feedVoltageChange_turnsOff s dt high on
  · rintro x _ on within high rfl still
    exact ⟨_, feedOvervoltageOpen_exec s dt on within high, turnOff_turnedOff still⟩
  · rintro x _ on under rfl still
    exact ⟨_, feedUndervoltageTurnOff_exec s dt on under, turnOff_turnedOff still⟩
  · exact fun on => ⟨_, rfl, turnOff_turnedOff on⟩
  · exact fun on => ⟨_, rfl, turnOff_turnedOff on⟩

end Sys2Proof.Machine
end
